-- ==== Sys2Proof/Word.lean ====
section
/-! DEFINITION. The word types of RBMIX: 64-bit register words, bytes, and binary64 patterns. -/

namespace Sys2Proof

/-- A register word, a command word, or an i64 as its two's-complement pattern (00_scope R6, R9). -/
abbrev Word := BitVec 64

/-- One byte of DMEM (20_memory R60). -/
abbrev Byte := BitVec 8

/-- A 64-bit pattern read as IEEE 754 binary64 (00_scope R10). -/
abbrev F64 := BitVec 64

end Sys2Proof
end

