-- ==== Sys2Proof/Syntax.lean ====
section
/-! DEFINITION. The commands of RBMIX, one constructor per row of spec/opcode_table.json. -/

namespace Sys2Proof

/-- 30_encoding R82: the eight commands. W is an unsigned byte count (R85) and IDX an unsigned index
(R86): both are counts, so both are natural numbers here; `Instr.WellFormed` bounds them by their
fields. -/
inductive Instr
  /-- 44_control R205. -/
  | nop
  /-- 43_mixer R165. -/
  | mix
  /-- 40_codec R110. -/
  | dec (w : Nat)
  /-- 40_codec R112. -/
  | enc (w : Nat)
  /-- 41_easing R130. -/
  | ease
  /-- 41_easing R131. -/
  | lutrd (idx : Nat)
  /-- 43_mixer R164. -/
  | mix2
  /-- 42_crossfade R146. -/
  | xstep (idx : Nat)
  deriving DecidableEq, Repr

end Sys2Proof
end

