-- ==== Sys2Proof/WellFormed.lean ====
section
/-! DEFINITION. Which commands the command word can spell (30_encoding R80, R81, R85, R86). Whether a
width or an index is LEGAL is the command's own check (R83) and stands in its meaning. -/

namespace Sys2Proof

/-- 30_encoding R80: W is 8 bits wide and IDX is 16 bits wide. -/
def Instr.wellFormed : Instr → Bool
  | .nop => true
  | .mix => true
  | .dec w => w < 2 ^ 8
  | .enc w => w < 2 ^ 8
  | .ease => true
  | .lutrd idx => idx < 2 ^ 16
  | .mix2 => true
  | .xstep idx => idx < 2 ^ 16

/-- The command fits its format. -/
abbrev Instr.WellFormed (i : Instr) : Prop := i.wellFormed = true

end Sys2Proof
end

