-- ==== Sys2Proof/Decode.lean ====
section
/-! DEFINITION. The decoder of a command word (30_encoding R83), total and rejecting by name, and after
it the encoder (30_encoding R81, R82, R89). -/

namespace Sys2Proof

/-- Why a word spells no command (30_encoding R83, R87). Each is reported as ILLEGAL_CMD. -/
inductive DecodeError
  /-- OP is none of 30_encoding R82's opcodes (R87). -/
  | reservedOpcode
  /-- RSV, bits 63:32, is not 0 (R80). -/
  | reservedBits
  /-- A field that the opcode's format does not use is not 0 (R81). -/
  | unusedField
  deriving DecidableEq, Repr

/-- What the decoder answers. -/
inductive Decoded
  | command (i : Instr)
  | illegal (e : DecodeError)
  deriving DecidableEq, Repr

/-- OP, bits 7:0 (30_encoding R80). -/
def wordOp (w : Word) : Nat := (w.extractLsb' 0 8).toNat

/-- W, bits 15:8 (30_encoding R80). -/
def wordW (w : Word) : Nat := (w.extractLsb' 8 8).toNat

/-- IDX, bits 31:16, zero-extended (30_encoding R80, R86). -/
def wordIdx (w : Word) : Nat := (w.extractLsb' 16 16).toNat

/-- RSV, bits 63:32 (30_encoding R80). -/
def wordRsv (w : Word) : Nat := (w.extractLsb' 32 32).toNat

/-- 30_encoding R81: the three formats. -/
inductive Format
  /-- OP only. -/
  | c0
  /-- OP and W. -/
  | cw
  /-- OP and IDX. -/
  | ci
  deriving DecidableEq, Repr

/-- 30_encoding R81: every field the format does not use is 0. -/
def Format.admits : Format → Word → Bool
  | .c0, w => wordW w == 0 && wordIdx w == 0
  | .cw, w => wordIdx w == 0
  | .ci, w => wordW w == 0

/-- 30_encoding R82: the format and the command of an opcode, its operands taken from the word; none
for a reserved opcode (R87). -/
def opcodeRow (w : Word) : Option (Format × Instr) :=
  match wordOp w with
  | 0x00 => some (.c0, .nop)
  | 0x01 => some (.c0, .mix)
  | 0x10 => some (.cw, .dec (wordW w))
  | 0x11 => some (.cw, .enc (wordW w))
  | 0x20 => some (.c0, .ease)
  | 0x21 => some (.ci, .lutrd (wordIdx w))
  | 0x30 => some (.c0, .mix2)
  | 0x40 => some (.ci, .xstep (wordIdx w))
  | _ => none

/-- 30_encoding R83: the command a word spells, or why it spells none. -/
def decode (w : Word) : Decoded :=
  match opcodeRow w with
  | none => .illegal .reservedOpcode
  | some (f, i) =>
    if wordRsv w ≠ 0 then .illegal .reservedBits
    else if f.admits w then .command i
    else .illegal .unusedField

/-- The command of a word of the opcode table, numbered as spec/opcode_table.json numbers its bits. A
command is one 64-bit register word, bit 0 its least significant bit (30_encoding R80, R88), so the
table's number IS the word; bits at or above nbits are 0 (entry 24). -/
def decodeTableWord (nbits w : Nat) : Option Instr :=
  match decode (BitVec.ofNat 64 (w % 2 ^ nbits)) with
  | .command i => some i
  | .illegal _ => none

/-- 30_encoding R82: OP of each command. -/
def Instr.opcode : Instr → Nat
  | .nop => 0x00
  | .mix => 0x01
  | .dec _ => 0x10
  | .enc _ => 0x11
  | .ease => 0x20
  | .lutrd _ => 0x21
  | .mix2 => 0x30
  | .xstep _ => 0x40

/-- The W field of a command: 0 where its format has none (30_encoding R81). -/
def Instr.fieldW : Instr → Nat
  | .dec w => w
  | .enc w => w
  | .nop | .mix | .ease | .lutrd _ | .mix2 | .xstep _ => 0

/-- The IDX field of a command: 0 where its format has none (30_encoding R81). -/
def Instr.fieldIdx : Instr → Nat
  | .lutrd idx => idx
  | .xstep idx => idx
  | .nop | .mix | .dec _ | .enc _ | .ease | .mix2 => 0

/-- 30_encoding R80, R81, R89: the word of a command, RSV : IDX : W : OP. -/
def encode (i : Instr) : Word :=
  BitVec.ofNat 32 0 ++ BitVec.ofNat 16 i.fieldIdx ++ BitVec.ofNat 8 i.fieldW ++
    BitVec.ofNat 8 i.opcode

end Sys2Proof
end

