-- ==== Sys2Proof/Config.lean ====
section
/-! DEFINITION. The parameters RBMIX takes (00_scope R6) and the one free value of the model
(70_reset_and_hazards R266, 93 item U4). -/

namespace Sys2Proof

/-- 00_scope R6: the parameters a model takes as arguments. They are data, so that one model covers
every legal choice. DESIGN CHOICE, safe (entry 1). -/
structure Config where
  /-- MAX_SOURCES: number of source slots. -/
  maxSources : Nat
  /-- MEM_SIZE: number of bytes of DMEM. -/
  memSize : Nat
  /-- SUPPORT_24: a 3-byte sample width is accepted. -/
  support24 : Bool
  /-- TABLE_SIZE: number of entries of the easing table. -/
  tableSize : Nat
  deriving DecidableEq, Repr

/-- The default of every parameter (00_scope R6, R7). -/
def Config.default : Config :=
  { maxSources := 16, memSize := 2 ^ 32, support24 := true, tableSize := 4000 }

/-- The legal values of the parameters (00_scope R6). -/
abbrev Config.Legal (c : Config) : Prop :=
  (1 ≤ c.maxSources ∧ c.maxSources ≤ 60) ∧ (1 ≤ c.memSize ∧ c.memSize ≤ 2 ^ 64) ∧
    (2 ≤ c.tableSize ∧ c.tableSize ≤ 65535)

/-- The legal sample widths, spelled out (30_encoding R85). -/
abbrev Config.AcceptsWidth (c : Config) (w : Nat) : Prop :=
  w = 1 ∨ w = 2 ∨ w = 4 ∨ (w = 3 ∧ c.support24 = true)

/-- The byte that the n-th draw of an unspecified byte gives: 70_reset_and_hazards R266, "each byte of that
run's output window holds any value" (entry 5), and what a host reads at an address that does not exist
(entry 10). A free value with no body: nothing constrains it. -/
opaque Config.freeByte : Nat → Byte

end Sys2Proof
end

