-- ==== Sys2Proof/Machine/State.lean ====
section
/-! DEFINITION. The state of RBMIX, its DMEM and what the outside world does to it next, as plain data;
the reasons a step can stop; the state after reset (10_state R54, 70_reset_and_hazards R260). -/

namespace Sys2Proof.Machine

/-- Why a step stops. RBMIX itself never stops (93 section 1: every run terminates; 20_memory R67: a run
has no memory fault), and nothing the host does stops it (70 R277). The one constructor is SAFE: where the
model stops, the spec says the address does not exist (entry 10). -/
inductive Fault
  /-- The run would access a DMEM address at or above MEM_SIZE. Raised by a sample step or a tail write
  in states that no run reaches (20_memory R67 excludes it after validation). Safe. -/
  | runOutsideDmem (addr : Nat)
  deriving DecidableEq, Repr

/-- Why a step is refused. -/
inductive Refusal
  /-- Raised by an arm of exec for a command that has no meaning yet; no arm does. Safe. -/
  | notModelled (mnemonic : String)
  deriving DecidableEq, Repr

/-- 10_state R51: where the block is in a run. -/
inductive Phase
  | idle
  | sample
  | tail
  | finish
  deriving DecidableEq, Repr

/-- 60_exceptions R222: the error codes that can be reported. -/
inductive ErrCode
  | none
  | illegalCmd
  | argCount
  | argTooMany
  | fmtBitdepth
  | fmtWidth
  | fmtChannels
  | alloc
  | argBufShort
  | argBufRange
  | argOverlap
  deriving DecidableEq, Repr

/-- 10_state R40: one slot of the source slot register file. -/
structure Slot where
  /-- f64 (R41). -/
  volume : F64
  /-- i64 (R42). -/
  tlen : Word
  /-- i64 (R43). -/
  tcur : Word
  /-- f64 (R44). -/
  tfrom : F64
  /-- f64 (R45). -/
  tto : F64
  /-- u64 (R46). -/
  bufBase : Word
  /-- u64 (R47). -/
  bufLen : Word
  deriving DecidableEq, Repr

/-- 10_state R51: the run's working copy of one slot's VOLUME, TLEN, TCUR. -/
structure Work where
  vol : F64
  tlen : Word
  tcur : Word
  deriving DecidableEq, Repr

/-- 20_memory R66: a DMEM address range [base, base + size), in mathematical integers. -/
structure Window where
  base : Nat
  size : Nat
  deriving DecidableEq, Repr

/-- 70_reset_and_hazards R266: the windows of one run that the host must not write until it has read
STATUS.BUSY = 0. The model's own record (entry 6). -/
structure Duty where
  out : Window
  ins : List Window
  deriving DecidableEq, Repr

/-- One access on the register port (10_state R20): the offset bits 11:3, and for a write the 64-bit
value. -/
inductive RegAccess
  | write (word : BitVec 9) (v : Word)
  | read (word : BitVec 9)
  deriving DecidableEq, Repr

/-- What happens next outside the block, or whose turn it is (entry 2). -/
inductive Event
  /-- WR or RD (30_encoding R90). -/
  | reg (a : RegAccess)
  /-- MWB: host DMEM write of the bytes from the address upward, in one step (30_encoding R90; entry 28). -/
  | memWrite (addr : Word) (bytes : List Byte)
  /-- MRB: host DMEM read of n bytes, in one step (30_encoding R90; entry 28). -/
  | memRead (addr : Word) (n : Nat)
  /-- WAIT: repeat RD STATUS until BUSY is 0 (30_encoding R90). -/
  | wait
  /-- The sequencer takes its next run step (43_mixer R172 to R178). -/
  | runStep
  /-- The sequencer writes the next single byte of its current step, after the step's reads if it is the
  first (20_memory R70, R74; entry 7). -/
  | runByte
  /-- The reset input, with the register access that falls in the same step, if any (70 R263). -/
  | reset (lost : Option RegAccess)
  deriving DecidableEq, Repr

/-- DMEM as (address, byte) pairs: addresses strictly rising, and no entry equal to what an unlisted
address reads as (20_memory R60; entry 3). -/
abbrev Memory := List Host.Cell

/-- The machine: everything spec/ gives RBMIX, its DMEM and parameters, and the model's own fields. -/
structure State where
  /-- The parameters (00_scope R6); no step changes them. -/
  cfg : Config
  /-- STATUS.DONE (10_state R25). STATUS.BUSY is `phase ≠ .idle` (R51). -/
  done : Bool
  /-- STATUS.ERR (10_state R25). -/
  err : Bool
  /-- STATUS.DROPPED (10_state R25). -/
  dropped : Bool
  /-- STATUS.ERRCODE (10_state R25). -/
  errcode : BitVec 8
  /-- STATUS.ERRSLOT (10_state R25). -/
  errslot : BitVec 16
  /-- IRQ_EN.E (10_state R27). -/
  irqEn : Bool
  /-- LENGTH (10_state R28). -/
  length : BitVec 32
  /-- BITDEPTH (10_state R29). -/
  bitdepth : BitVec 32
  /-- CHANNELS (10_state R30). -/
  channels : BitVec 32
  /-- NBUF (10_state R31). -/
  nbuf : BitVec 32
  /-- NREC (10_state R32). -/
  nrec : BitVec 32
  /-- OUT_BASE (10_state R33). -/
  outBase : Word
  /-- OPA (10_state R34). -/
  opa : Word
  /-- OPB (10_state R34). -/
  opb : Word
  /-- OPC (10_state R34). -/
  opc : Word
  /-- RES (10_state R35). -/
  res : Word
  /-- POS (10_state R36). -/
  pos : BitVec 32
  /-- The slot register file, slot i at place i (10_state R40). -/
  slots : List Slot
  /-- PHASE (10_state R51). -/
  phase : Phase
  /-- WORK, entry i at place i (10_state R51). -/
  work : List Work
  /-- How many output bytes past POS the run has written: part of a sample's write, or the tail bytes
  written so far (20_memory R70, 43_mixer R176, 70 R262; entry 7). -/
  beat : Nat
  /-- The bytes of the current sample that its step has computed from its one read of each source and has
  not yet written; none while no byte of the sample is written (20_memory R69, R74; entry 7). -/
  held : List Byte
  /-- DMEM (20_memory R60). -/
  mem : Memory
  /-- The model's own: what happens next, oldest first (entry 2). -/
  inputs : List Event
  /-- The model's own: what the last register read returned (10_state R20; entry 9). -/
  regData : Word
  /-- The model's own: what the last host DMEM read returned (30_encoding R90; entry 9). -/
  memData : List Byte
  /-- The model's own: the duties the host is under, newest first (70 R266; entry 6). -/
  duties : List Duty
  /-- The model's own: the host has broken its duty in the run in progress (70 R266; entry 5). -/
  tainted : Bool
  /-- The model's own: how many free bytes have been drawn (entries 5, 10). -/
  draws : Nat
  deriving DecidableEq, Repr

/-- A slot at reset (10_state R40, R54, R55): TLEN is -1, every other field 0. -/
def Slot.reset : Slot :=
  { volume := 0, tlen := BitVec.allOnes 64, tcur := 0, tfrom := 0, tto := 0, bufBase := 0, bufLen := 0 }

/-- A WORK entry that no acceptance has written. 10_state R51 leaves it unspecified and R261 says that it
is never observable. DESIGN CHOICE, unsafe (entry 4). -/
def Work.unloaded : Work := { vol := 0, tlen := 0, tcur := 0 }

/-- The machine right after reset with parameters c (10_state R54), nothing listed in DMEM and nothing
about to happen. -/
def State.powerOn (c : Config) : State :=
  { cfg := c
    done := false, err := false, dropped := false, errcode := 0, errslot := 0
    irqEn := false
    length := 0, bitdepth := 0, channels := 0, nbuf := 0, nrec := 0, outBase := 0
    opa := 0, opb := 0, opc := 0, res := 0, pos := 0
    slots := List.replicate c.maxSources Slot.reset
    phase := .idle
    work := List.replicate c.maxSources Work.unloaded
    beat := 0
    held := []
    mem := []
    inputs := []
    regData := 0, memData := []
    duties := [], tainted := false, draws := 0 }

/-- The machine right after reset, with the default parameters (10_state R54, 00_scope R6). -/
def State.reset : State := State.powerOn Config.default

end Sys2Proof.Machine
end

