-- ==== Sys2Proof/Machine/Ops.lean ====
section
/-! DEFINITION. The named operations over DMEM, slots and STATUS, and the shared operations by which
every command is issued, completes or ends in an error (44_control R200 to R203, 60_exceptions R230). -/

namespace Sys2Proof.Machine

/-! ## DMEM (20_memory R60, R63; 00_scope R13) -/

/-- What a byte of DMEM that nothing has written reads as. DESIGN CHOICE after the convention of
95_test_vectors section 3, unsafe (entry 3). -/
def Memory.blank : Byte := 0

/-- One byte. -/
def Memory.read : Memory → Nat → Byte
  | [], _ => Memory.blank
  | (k, b) :: m, a => if k = a then b else Memory.read m a

/-- One byte written; the canonical form is kept. -/
def Memory.write : Memory → Nat → Byte → Memory
  | [], a, v => if v = Memory.blank then [] else [(a, v)]
  | (k, b) :: m, a, v =>
    if a < k then (if v = Memory.blank then (k, b) :: m else (a, v) :: (k, b) :: m)
    else if a = k then (if v = Memory.blank then m else (a, v) :: m)
    else (k, b) :: Memory.write m a v

/-- MemRead (00_scope R13): n bytes from a upward, byte a first. -/
def Memory.readBytes (m : Memory) (a n : Nat) : List Byte :=
  (List.range n).map fun k => Memory.read m (a + k)

/-- MemWrite (00_scope R13): the bytes from a upward, one at a time in ascending order. -/
def Memory.writeBytes : Memory → Nat → List Byte → Memory
  | m, _, [] => m
  | m, a, b :: bs => Memory.writeBytes (Memory.write m a b) (a + 1) bs

/-- Addresses from lo on, strictly rising, and no entry blank. -/
def Memory.wfFrom : Nat → Memory → Bool
  | _, [] => true
  | lo, (k, b) :: m => decide (lo ≤ k) && decide (b ≠ Memory.blank) && Memory.wfFrom (k + 1) m

/-- The canonical form: addresses strictly rising and no entry equal to what an unlisted one reads. -/
def Memory.wf (m : Memory) : Bool := Memory.wfFrom 0 m

/-- The n addresses from a on lie inside DMEM (20_memory R60). No address is outside if n is 0. -/
def State.inDmem (s : State) (a n : Nat) : Bool := n == 0 || decide (a + n ≤ s.cfg.memSize)

/-- The window contains the address; an empty window contains none (20_memory R66). -/
def Window.has (w : Window) (a : Nat) : Bool := decide (w.base ≤ a) && decide (a < w.base + w.size)

/-- Two windows share an address (20_memory R66). -/
def Window.meets (v w : Window) : Bool :=
  decide (0 < v.size) && decide (0 < w.size) && decide (v.base < w.base + w.size) &&
    decide (w.base < v.base + v.size)

/-! ## The slot register file and WORK (10_state R40, R51) -/

/-- S[i]. Every index below MAX_SOURCES is listed. -/
def State.slot (s : State) (i : Nat) : Slot := s.slots.getD i Slot.reset

/-- S[i] replaced. -/
def State.setSlot (s : State) (i : Nat) (x : Slot) : State := { s with slots := s.slots.set i x }

/-- WORK[i]. -/
def State.workAt (s : State) (i : Nat) : Work := s.work.getD i Work.unloaded

/-! ## STATUS and the life of a command -/

/-- 60_exceptions R222: the numeric code. -/
def ErrCode.code : ErrCode → BitVec 8
  | .none => 0x00
  | .illegalCmd => 0x01
  | .argCount => 0x02
  | .argTooMany => 0x03
  | .fmtBitdepth => 0x04
  | .fmtWidth => 0x05
  | .fmtChannels => 0x06
  | .alloc => 0x07
  | .argBufShort => 0x08
  | .argBufRange => 0x09
  | .argOverlap => 0x0A

/-- STATUS.BUSY: 1 exactly when PHASE is not IDLE (10_state R51). -/
def State.busy (s : State) : Bool := s.phase ≠ .idle

/-- Acceptance of a command (44_control R201): DONE, ERR, ERRCODE and ERRSLOT are cleared, DROPPED is
kept. -/
def State.accept (s : State) : State :=
  { s with done := false, err := false, errcode := 0, errslot := 0 }

/-- Completion of a command (44_control R203). ERRCODE and ERRSLOT are 0 since acceptance. -/
def State.complete (s : State) : State := { s with done := true }

/-- Error entry, `raise Error(code, slot)` (60_exceptions R230), after acceptance: the one exception of
this machine. DONE and BUSY stay 0 and nothing is saved. The return from it is a host write of STATUS
(`State.clearStatus`), the next acceptance or reset (R231). -/
def State.raise (s : State) (c : ErrCode) (slot : Nat) : State :=
  { s with err := true, errcode := c.code, errslot := BitVec.ofNat 16 slot }

/-- A CMD write while BUSY is discarded (44_control R202). -/
def State.drop (s : State) : State := { s with dropped := true }

/-- The issue of a command (44_control R200 to R202): dropped while BUSY; else accepted, then the
command's own rule. -/
def State.issue (s : State) (rule : State → State) : Host.Outcome State Fault Refusal :=
  if s.busy then .next s.drop else .next (rule s.accept)

/-! ## Free bytes (70_reset_and_hazards R266; entries 5, 10) -/

/-- n free bytes. -/
def State.freeBytes (s : State) (n : Nat) : List Byte :=
  (List.range n).map fun k => Config.freeByte (s.draws + k)

/-- The bytes of a window take free values. -/
def State.havoc (s : State) (w : Window) : State :=
  { s with mem := Memory.writeBytes s.mem w.base (s.freeBytes w.size), draws := s.draws + w.size }

/-- The bytes a run stores: what the rules give, or free bytes once the host has broken its duty
(70 R266). -/
def State.storeOutput (s : State) (a : Nat) (bytes : List Byte) : State :=
  if s.tainted then
    { s with
      mem := Memory.writeBytes s.mem a (s.freeBytes bytes.length), draws := s.draws + bytes.length }
  else { s with mem := Memory.writeBytes s.mem a bytes }

/-! ## Reset (70_reset_and_hazards R260 to R262) -/

/-- The reset input. Every register, field and PHASE takes its reset value whatever the state before;
DMEM (and the ROM, a function of the parameters) stays. WORK is unspecified (entry 4). The host's own
observations, the events still to come and the count of draws are not the block's. -/
def State.resetInput (s : State) : State :=
  { State.powerOn s.cfg with
    mem := s.mem, inputs := s.inputs, regData := s.regData, memData := s.memData, draws := s.draws }

end Sys2Proof.Machine
end

