-- ==== Sys2Proof/Machine/Control.lean ====
section
/-! DEFINITION. The command NOP (44_control R205). -/

namespace Sys2Proof.Machine

/-- NOP (44_control R205): nothing but acceptance and completion. -/
def execNop (s : State) : Host.Outcome State Fault Refusal := s.issue fun a => a.complete

end Sys2Proof.Machine
end

