-- ==== Sys2Proof/Machine/Float.lean ====
section
/-! DEFINITION. IEEE 754 binary64 arithmetic on 64-bit patterns (00_scope R10, R11, R12). A finite value
is an exact whole number of units of 2^-1074, the smallest subnormal; each operation computes its exact
result and rounds it ONCE. What the operations do with zeros, infinities and NaN is the standard's,
which R10 names and does not repeat (PRESUMED, entry 11). -/

namespace Sys2Proof.Machine

/-- The value of a pattern: a NaN, an infinity, or plus or minus a whole number of units of 2^-1074. -/
inductive FVal
  | nan
  | inf (neg : Bool)
  | fin (neg : Bool) (units : Nat)
  deriving DecidableEq, Repr

/-- The sign bit. -/
def fSign (x : F64) : Bool := x.msb

/-- The biased exponent, bits 62:52. -/
def fExp (x : F64) : Nat := (x.extractLsb' 52 11).toNat

/-- The fraction, bits 51:0. -/
def fFrac (x : F64) : Nat := (x.extractLsb' 0 52).toNat

/-- The magnitude of a finite pattern in units of 2^-1074; subnormals are kept (00_scope R10). -/
def fUnits (x : F64) : Nat :=
  if fExp x = 0 then fFrac x else (2 ^ 52 + fFrac x) * 2 ^ (fExp x - 1)

/-- The value of a pattern (00_scope R10). -/
def fVal (x : F64) : FVal :=
  if fExp x = 2047 then (if fFrac x = 0 then .inf (fSign x) else .nan) else .fin (fSign x) (fUnits x)

/-- How many units make 1.0. -/
def fOneUnits : Nat := 2 ^ 1074

/-- The pattern with a sign and the 63 lower bits given. -/
def fPattern (neg : Bool) (low : Nat) : F64 := BitVec.ofNat 64 ((if neg then 2 ^ 63 else 0) + low)

/-- The lower 63 bits of an infinity. -/
def fInfLow : Nat := 2047 * 2 ^ 52

/-- CANON_NAN (00_scope R11). -/
def canonNaN : F64 := 0x7FF8000000000000

/-- An infinity. -/
def fInf (neg : Bool) : F64 := fPattern neg fInfLow

/-- A zero. -/
def fZero (neg : Bool) : F64 := fPattern neg 0

/-- 1.0. -/
def fOne : F64 := 0x3FF0000000000000

/-- -1.0. -/
def fMinusOne : F64 := 0xBFF0000000000000

/-- The whole number nearest to n/d, the even one when two are (00_scope R10: roundTiesToEven). -/
def roundHalfEven (n d : Nat) : Nat :=
  if 2 * (n % d) < d then n / d
  else if d < 2 * (n % d) then n / d + 1
  else n / d + n / d % 2

/-- The spacing of binary64 values around n/d units is 2^k units: k is 0 up to 2^53 units, and then
grows by one per binade. -/
def fScale (n d : Nat) : Nat := Nat.log2 (n / d) - 52

/-- The binary64 value nearest to plus or minus n/d units of 2^-1074, roundTiesToEven (00_scope R10).
m * 2^k units with 2^52 ≤ m ≤ 2^53, or m ≤ 2^53 when k = 0, has the lower bits k * 2^52 + m; from
2^1024 on the result is an infinity. -/
def fRound (neg : Bool) (n d : Nat) : F64 :=
  fPattern neg (min (fScale n d * 2 ^ 52 + roundHalfEven n (d * 2 ^ fScale n d)) fInfLow)

/-- A signed magnitude as an integer. -/
def signedInt (neg : Bool) (u : Nat) : Int := if neg then -(u : Int) else u

/-- fadd (00_scope R10, R11). An exact zero sum is -0.0 only if both operands are negative. -/
def fadd (a b : F64) : F64 :=
  match fVal a, fVal b with
  | .nan, _ => canonNaN
  | _, .nan => canonNaN
  | .inf s, .inf t => if s = t then fInf s else canonNaN
  | .inf s, .fin _ _ => fInf s
  | .fin _ _, .inf t => fInf t
  | .fin s u, .fin t v =>
    if signedInt s u + signedInt t v = 0 then fZero (s && t)
    else fRound (signedInt s u + signedInt t v < 0) (signedInt s u + signedInt t v).natAbs 1

/-- The pattern with its sign bit flipped. -/
def fneg (a : F64) : F64 := a ^^^ 0x8000000000000000

/-- fsub (00_scope R10, R11): the sum with the second operand negated. -/
def fsub (a b : F64) : F64 := fadd a (fneg b)

/-- fmul (00_scope R10, R11). -/
def fmul (a b : F64) : F64 :=
  match fVal a, fVal b with
  | .nan, _ => canonNaN
  | _, .nan => canonNaN
  | .inf s, .inf t => fInf (s != t)
  | .inf s, .fin t v => if v = 0 then canonNaN else fInf (s != t)
  | .fin s u, .inf t => if u = 0 then canonNaN else fInf (s != t)
  | .fin s u, .fin t v => fRound (s != t) (u * v) fOneUnits

/-- fdiv (00_scope R10, R11, 60_exceptions R226): a zero divisor gives an infinity or a NaN. -/
def fdiv (a b : F64) : F64 :=
  match fVal a, fVal b with
  | .nan, _ => canonNaN
  | _, .nan => canonNaN
  | .inf _, .inf _ => canonNaN
  | .inf s, .fin t _ => fInf (s != t)
  | .fin s _, .inf t => fZero (s != t)
  | .fin s u, .fin t v =>
    if v = 0 then (if u = 0 then canonNaN else fInf (s != t)) else fRound (s != t) (u * fOneUnits) v

/-- isnan (00_scope R12). -/
def fIsNaN (x : F64) : Bool := fVal x = .nan

/-- fabs (00_scope R10, R11): the sign bit cleared; CANON_NAN for every NaN. -/
def fabs (a : F64) : F64 := if fIsNaN a then canonNaN else a &&& 0x7FFFFFFFFFFFFFFF

/-- x < y, the IEEE ordered comparison (00_scope R12): false for a NaN, and -0.0 equals +0.0. -/
def fLt (a b : F64) : Bool :=
  match fVal a, fVal b with
  | .nan, _ => false
  | _, .nan => false
  | .inf s, .inf t => s && !t
  | .inf s, .fin _ _ => s
  | .fin _ _, .inf t => !t
  | .fin s u, .fin t v => signedInt s u < signedInt t v

/-- x > y (00_scope R12). -/
def fGt (a b : F64) : Bool := fLt b a

/-- i2f (00_scope R12): the nearest binary64 value of an integer; 0 gives +0.0. -/
def i2f (n : Int) : F64 := fRound (n < 0) (n.natAbs * fOneUnits) 1

/-- ftrunc (00_scope R12): a finite value rounded toward zero. The rules never apply it to a NaN or an
infinity; there it answers 0 (entry 22). -/
def ftrunc (x : F64) : Int :=
  match fVal x with
  | .fin s u => signedInt s (u / fOneUnits)
  | .nan => 0
  | .inf _ => 0

/-- ffloor (00_scope R12): the largest integer not above a finite x ≥ -0.0. The rules never apply it
elsewhere; there it answers 0 (entry 22). -/
def ffloor (x : F64) : Nat :=
  match fVal x with
  | .fin s u => if s then 0 else u / fOneUnits
  | .nan => 0
  | .inf _ => 0

end Sys2Proof.Machine
end

