-- ==== Sys2Proof/Machine/Operands.lean ====
section
/-! DEFINITION. The operand forms of the commands (30_encoding R84, R85) and the byte forms of a sample
(00_scope R9, R13, R14). -/

namespace Sys2Proof.Machine

/-- 30_encoding R85: the legal sample widths, 1, 2, 4, and 3 when SUPPORT_24 = 1. -/
def widthLegal (c : Config) (w : Nat) : Bool := w == 1 || w == 2 || w == 4 || (w == 3 && c.support24)

/-- MAXMAG(w) = 2^(8w-1) - 1 (00_scope R14). -/
def maxMag (w : Nat) : Nat := 2 ^ (8 * w - 1) - 1

/-- fromLE (00_scope R13): the unsigned integer of little-endian bytes. -/
def fromLE : List Byte → Nat
  | [] => 0
  | b :: bs => b.toNat + 256 * fromLE bs

/-- LE_w (00_scope R13): the w low bytes of n, least significant first. -/
def toLE : Nat → Nat → List Byte
  | 0, _ => []
  | w + 1, n => BitVec.ofNat 8 n :: toLE w (n / 256)

/-- sext_N (00_scope R9): the low N bits as a two's-complement integer. -/
def sext (bits n : Nat) : Int := (BitVec.ofNat bits n).toInt

/-- 30_encoding R84: OPA[8w-1:0] as w little-endian sample bytes, byte k = OPA[8k+7:8k]. -/
def State.opaSample (s : State) (w : Nat) : List Byte := toLE w s.opa.toNat

/-- 30_encoding R84: sample bytes as a result, byte k in RES[8k+7:8k], the rest 0. -/
def sampleWord (bytes : List Byte) : Word := BitVec.ofNat 64 (fromLE bytes)

end Sys2Proof.Machine
end

