-- ==== Sys2Proof/Machine/Codec.lean ====
section
/-! DEFINITION. The sample codec and its commands DEC and ENC (40_codec). -/

namespace Sys2Proof.Machine

/-- Decode (40_codec R100, R101): the signed integer of the bytes over MAXMAG(w), one division. -/
def decodeSample (bytes : List Byte) (w : Nat) : F64 :=
  fdiv (i2f (sext (8 * w) (fromLE bytes))) (i2f (maxMag w))

/-- Encode's clamp to [-1.0, 1.0] (40_codec R103); -0.0 stays -0.0. -/
def clampUnit (v : F64) : F64 := if fGt v fOne then fOne else if fLt v fMinusOne then fMinusOne else v

/-- Encode's integer (40_codec R103, R104): 0 for a NaN, else the clamped value scaled and truncated. -/
def encodeInt (v : F64) (w : Nat) : Int :=
  if fIsNaN v then 0 else ftrunc (fmul (clampUnit v) (i2f (maxMag w)))

/-- Encode (40_codec R103, R105): the two's-complement bytes, least significant first. -/
def encodeSample (v : F64) (w : Nat) : List Byte := toLE w (encodeInt v w % 2 ^ (8 * w)).toNat

/-- DEC w (40_codec R110). -/
def execDec (w : Nat) (s : State) : Host.Outcome State Fault Refusal :=
  s.issue fun a =>
    if widthLegal a.cfg w then { a with res := decodeSample (a.opaSample w) w }.complete
    else a.raise .fmtWidth 0

/-- ENC w (40_codec R112). -/
def execEnc (w : Nat) (s : State) : Host.Outcome State Fault Refusal :=
  s.issue fun a =>
    if widthLegal a.cfg w then { a with res := sampleWord (encodeSample a.opa w) }.complete
    else a.raise .fmtWidth 0

end Sys2Proof.Machine
end

