-- ==== Sys2Proof/Machine/Easing.lean ====
section
/-! DEFINITION. The easing ROM, the Ease function and the commands EASE and LUTRD (41_easing). -/

namespace Sys2Proof.Machine

/-- The progress x of entry i of the easing ROM (41_easing R120): i / (TABLE_SIZE - 1), rounded once. -/
def easeX (c : Config) (i : Nat) : F64 := fdiv (i2f i) (i2f (c.tableSize - 1 : Nat))

/-- Entry i of the easing ROM (41_easing R120, 10_state R50): (x * x) * x, each product rounded. The ROM
is constant, so it is a function of the parameters (entry 12). -/
def easeTable (c : Config) (i : Nat) : F64 := fmul (fmul (easeX c i) (easeX c i)) (easeX c i)

/-- Ease's clamp of the progress to [0, 1] (41_easing R122, R123); a NaN is taken as 0, -0.0 stays. -/
def clampProgress (p : F64) : F64 :=
  if fIsNaN p then fZero false
  else if fLt p (fZero false) then fZero false
  else if fGt p fOne then fOne
  else p

/-- Ease's table index (41_easing R122, R124). -/
def easeIndex (c : Config) (p : F64) : Nat :=
  ffloor (fmul (clampProgress p) (i2f (c.tableSize - 1 : Nat)))

/-- Ease (41_easing R122, R125): from + (to - from) * T[index]. -/
def ease (c : Config) (p frm upto : F64) : F64 :=
  fadd frm (fmul (fsub upto frm) (easeTable c (easeIndex c p)))

/-- EASE (41_easing R130). -/
def execEase (s : State) : Host.Outcome State Fault Refusal :=
  s.issue fun a => { a with res := ease a.cfg a.opa a.opb a.opc }.complete

/-- LUTRD idx (41_easing R131). -/
def execLutrd (idx : Nat) (s : State) : Host.Outcome State Fault Refusal :=
  s.issue fun a =>
    if idx < a.cfg.tableSize then { a with res := easeTable a.cfg idx }.complete
    else a.raise .illegalCmd 0

end Sys2Proof.Machine
end

