-- ==== Sys2Proof/Machine/Crossfade.lean ====
section
/-! DEFINITION. The crossfade state machine and the command XSTEP (42_crossfade). -/

namespace Sys2Proof.Machine

/-- ACTIVE: tlen ≥ 0 as a signed i64 (42_crossfade R141). -/
def Work.active (r : Work) : Bool := decide (0 ≤ r.tlen.toInt)

/-- The progress of a transition (42_crossfade R143, R148): a real quotient of the two i64 values. -/
def progress (tcur tlen : Word) : F64 := fdiv (i2f tcur.toInt) (i2f tlen.toInt)

/-- XfStep (42_crossfade R142, R144, R147) on an ACTIVE record: TCUR + 1 wraps modulo 2^64; at or past
TLEN, compared as i64, the volume is TTO's pattern and the record becomes INACTIVE. Where R145 (3) differs,
for TLEN = 0 and TCUR ≤ -2, this follows R142, as R145 (1) does. DEDUCED, unsafe there (entry 27). -/
def xfStep (c : Config) (frm upto : F64) (r : Work) : Work :=
  if r.tlen.toInt ≤ (r.tcur + 1).toInt then
    { vol := upto, tlen := BitVec.allOnes 64, tcur := r.tcur + 1 }
  else
    { vol := ease c (progress (r.tcur + 1) r.tlen) frm upto, tlen := r.tlen, tcur := r.tcur + 1 }

/-- The step as a record takes it: an INACTIVE record is left unchanged (42_crossfade R141). -/
def crossfade (c : Config) (frm upto : F64) (r : Work) : Work :=
  if r.active then xfStep c frm upto r else r

/-- The record of a slot's registers (42_crossfade R140, 43_mixer R170). -/
def Slot.record (x : Slot) : Work := { vol := x.volume, tlen := x.tlen, tcur := x.tcur }

/-- A record written into a slot's registers (42_crossfade R146, 43_mixer R178). -/
def Slot.store (x : Slot) (r : Work) : Slot := { x with volume := r.vol, tlen := r.tlen, tcur := r.tcur }

/-- XSTEP idx (42_crossfade R146), by its pseudocode; its corner case on TLEN = 0 and R142 differ for TCUR ≤ -2
(entry 27). -/
def execXstep (idx : Nat) (s : State) : Host.Outcome State Fault Refusal :=
  s.issue fun a =>
    if idx < a.cfg.maxSources then
      (a.setSlot idx
        ((a.slot idx).store
          (crossfade a.cfg (a.slot idx).tfrom (a.slot idx).tto (a.slot idx).record))).complete
    else a.raise .illegalCmd 0

end Sys2Proof.Machine
end

