-- ==== Sys2Proof/Machine/Mixer.lean ====
section
/-! DEFINITION. The mixing function, the command MIX2, and the command MIX: its validation and its
acceptance (43_mixer R160 to R171). The run that an accepted MIX starts is in Run.lean. -/

namespace Sys2Proof.Machine

/-- Mix (43_mixer R160): (1 - |a*b|) * (a + b), in this order. -/
def mixPair (a b : F64) : F64 := fmul (fsub fOne (fabs (fmul a b))) (fadd a b)

/-- The fold (43_mixer R162): ascending index, from +0.0. -/
def mixFold (xs : List F64) : F64 := xs.foldl mixPair (fZero false)

/-- MIX2 (43_mixer R164). -/
def execMix2 (s : State) : Host.Outcome State Fault Refusal :=
  s.issue fun a => { a with res := mixPair a.opa a.opb }.complete

/-! ## Derived quantities (43_mixer R166) -/

/-- N = NBUF. -/
def State.count (s : State) : Nat := s.nbuf.toNat

/-- bs = BITDEPTH div 8. -/
def State.bs (s : State) : Nat := s.bitdepth.toNat / 8

/-- ss = bs * CHANNELS, the frame stride. -/
def State.ss (s : State) : Nat := s.bs * s.channels.toNat

/-- LENGTH as an integer. -/
def State.len (s : State) : Nat := s.length.toNat

/-- REQ = (LENGTH div bs) * bs, the bytes covered by whole samples (20_memory R66). -/
def State.req (s : State) : Nat := s.len / s.bs * s.bs

/-- The output window (20_memory R66). -/
def State.outWindow (s : State) : Window := { base := s.outBase.toNat, size := s.len }

/-- Input window i (20_memory R66). -/
def State.inWindow (s : State) (i : Nat) : Window :=
  { base := (s.slot i).bufBase.toNat, size := s.req }

/-! ## Validation (43_mixer R167 to R169) -/

/-- The first slot i < N with the property. -/
def State.firstSlot (s : State) (p : Nat → Bool) : Option Nat := (List.range s.count).find? p

/-- Check 7 for slot i: BUF_LEN < REQ. -/
def State.bufShort (s : State) (i : Nat) : Bool := decide ((s.slot i).bufLen.toNat < s.req)

/-- Check 8 for slot i: the input window is not empty and not inside DMEM. -/
def State.bufOutside (s : State) (i : Nat) : Bool :=
  !s.inDmem (s.slot i).bufBase.toNat s.req

/-- Check 9 for slot i: the output window and input window i overlap (43_mixer R169). -/
def State.bufOverlaps (s : State) (i : Nat) : Bool := s.outWindow.meets (s.inWindow i)

/-- Checks 7 to 9, each over ascending slot index (43_mixer R168, R169). -/
def State.checkBuffers (s : State) : Option (ErrCode × Nat) :=
  match s.firstSlot s.bufShort with
  | some i => some (.argBufShort, i)
  | none =>
    match s.firstSlot s.bufOutside with
    | some i => some (.argBufRange, i)
    | none =>
      match s.firstSlot s.bufOverlaps with
      | some i => some (.argOverlap, i)
      | none => none

/-- Validation of a MIX (43_mixer R167): the first check that fails, with its code and slot; none when
every check passes. -/
def State.mixError (s : State) : Option (ErrCode × Nat) :=
  if s.nbuf ≠ s.nrec then some (.argCount, 0)
  else if s.cfg.maxSources < s.count then some (.argTooMany, 0)
  else if s.bitdepth.toNat % 8 ≠ 0 then some (.fmtBitdepth, 0)
  else if !widthLegal s.cfg s.bs then some (.fmtWidth, 0)
  else if s.channels.toNat = 0 then some (.fmtChannels, 0)
  else if !s.inDmem s.outBase.toNat s.len then some (.alloc, 0)
  else s.checkBuffers

/-- The windows of the run about to start, which the host must leave alone (70 R266). -/
def State.runDuty (s : State) : Duty :=
  { out := s.outWindow, ins := (List.range s.count).map s.inWindow }

/-- Acceptance of a MIX that passes validation (43_mixer R170): WORK is loaded from the slots below N,
POS is 0, PHASE is SAMPLE. -/
def State.acceptMix (s : State) : State :=
  { s with
    work := s.work.mapIdx fun i r => if i < s.count then (s.slot i).record else r
    pos := 0, beat := 0, held := [], phase := .sample
    duties := s.runDuty :: s.duties, tainted := false }

/-- MIX (43_mixer R165): validation and acceptance, one step (R170). The run it starts is taken by the
sequencer, step by step (R179); its finish completes the command. -/
def execMix (s : State) : Host.Outcome State Fault Refusal :=
  s.issue fun a =>
    match a.mixError with
    | some (c, slot) => a.raise c slot
    | none => a.acceptMix

end Sys2Proof.Machine
end

