-- ==== Sys2Proof/Machine/Dispatch.lean ====
section
/-! DEFINITION. One arm per command: the meaning each calls. -/

namespace Sys2Proof.Machine

def exec (i : Instr) (s : State) : Host.Outcome State Fault Refusal :=
  match i with
  | .nop => Sys2Proof.Machine.execNop s
  | .mix => Sys2Proof.Machine.execMix s
  | .dec w => Sys2Proof.Machine.execDec w s
  | .enc w => Sys2Proof.Machine.execEnc w s
  | .ease => Sys2Proof.Machine.execEase s
  | .lutrd idx => Sys2Proof.Machine.execLutrd idx s
  | .mix2 => Sys2Proof.Machine.execMix2 s
  | .xstep idx => Sys2Proof.Machine.execXstep idx s

end Sys2Proof.Machine
end

