-- ==== Sys2Proof/Machine/Flags.lean ====
section
/-! DEFINITION. STATUS as a word, its write-1-to-clear bits, and the interrupt output (10_state R25, R26,
60_exceptions R240). -/

namespace Sys2Proof.Machine

/-- A flag as a bit of a word. -/
def flagBit (b : Bool) (i : Nat) : Word := if b then BitVec.ofNat 64 (2 ^ i) else 0

/-- STATUS as it reads (10_state R25): BUSY 0, DONE 1, ERR 2, DROPPED 3, ERRCODE 15:8, ERRSLOT 31:16,
every other bit 0. -/
def State.statusWord (s : State) : Word :=
  flagBit s.busy 0 ||| flagBit s.done 1 ||| flagBit s.err 2 ||| flagBit s.dropped 3 |||
    (s.errcode.setWidth 64 <<< 8) ||| (s.errslot.setWidth 64 <<< 16)

/-- A write to STATUS (10_state R26): clears DONE, ERR and DROPPED where the written bit is 1, and
changes nothing else. This is also how a host ends an error report (60_exceptions R231). -/
def State.clearStatus (s : State) (v : Word) : State :=
  { s with
    done := s.done && !v.getLsbD 1, err := s.err && !v.getLsbD 2,
    dropped := s.dropped && !v.getLsbD 3 }

/-- The interrupt output (60_exceptions R240): irq = IRQ_EN.E and (DONE or ERR). -/
def State.irq (s : State) : Bool := s.irqEn && (s.done || s.err)

end Sys2Proof.Machine
end

