-- ==== Sys2Proof/Machine/Run.lean ====
section
/-! DEFINITION. The steps of a MIX run: sample steps, tail writes and the finish (43_mixer R172 to
R178). -/

namespace Sys2Proof.Machine

/-- A sample step exists at POS: POS + bs ≤ LENGTH (43_mixer R172). -/
def State.hasSample (s : State) : Bool := decide (s.pos.toNat + s.bs ≤ s.len)

/-- A tail byte is still to be written (43_mixer R176). The next one is at offset POS + beat. -/
def State.hasTail (s : State) : Bool := decide (s.pos.toNat + s.beat < s.len)

/-- Where the run stands: SAMPLE moves to TAIL when POS + bs > LENGTH (43_mixer R172) and TAIL to FINISH
after the last byte (R176). A move takes no step of its own (70 R276; entry 8). -/
def State.nextPhase (s : State) : Phase :=
  match s.phase with
  | .sample => if s.hasSample then .sample else if s.hasTail then .tail else .finish
  | .tail => if s.hasTail then .tail else .finish
  | .idle => .idle
  | .finish => .finish

/-- The run moved to where it stands. -/
def State.advance (s : State) : State := { s with phase := s.nextPhase }

/-- The crossfade phase of a sample step (43_mixer R173): at the start of a frame, one crossfade step of
every WORK entry below N; else nothing. -/
def State.crossfadePhase (s : State) : List Work :=
  if s.pos.toNat % s.ss = 0 then
    s.work.mapIdx fun i r =>
      if i < s.count then crossfade s.cfg (s.slot i).tfrom (s.slot i).tto r else r
  else s.work

/-- Source i's value in the sample step at POS, at the volumes given (43_mixer R163, R174). -/
def State.sourceValue (s : State) (work : List Work) (i : Nat) : F64 :=
  fmul (decodeSample (s.mem.readBytes ((s.slot i).bufBase.toNat + s.pos.toNat) s.bs) s.bs)
    (work.getD i Work.unloaded).vol

/-- The accumulator of the sample step at POS (43_mixer R162, R174). -/
def State.sampleAcc (s : State) : F64 :=
  mixFold ((List.range s.count).map (s.sourceValue s.crossfadePhase))

/-- The output bytes of the sample step at POS (43_mixer R174). -/
def State.sampleBytes (s : State) : List Byte := encodeSample s.sampleAcc s.bs

/-- The address of the next output byte. -/
def State.outAddr (s : State) : Nat := s.outBase.toNat + s.pos.toNat + s.beat

/-- The first source whose bytes the sample step at POS would read outside DMEM; none in a run that
validation accepted (20_memory R67). -/
def State.readOutside (s : State) : Option Nat :=
  s.firstSlot fun i => !s.inDmem ((s.slot i).bufBase.toNat + s.pos.toNat) s.bs

/-- n bytes stored at the next output byte, or the fault that they would fall outside DMEM. -/
def State.runStore (s : State) (bytes : List Byte) (k : State → State) :
    Host.Outcome State Fault Refusal :=
  if s.inDmem s.outAddr bytes.length then .next (k (s.storeOutput s.outAddr bytes))
  else .fault (.runOutsideDmem s.outAddr)

/-- The bytes of the sample step at POS that are still to write: before its first byte, each source is read
once and the sample is computed (20_memory R69, R74); after that, they are held. -/
def State.runLoad (s : State) (k : List Byte → Host.Outcome State Fault Refusal) :
    Host.Outcome State Fault Refusal :=
  if s.beat = 0 then
    match s.readOutside with
    | some i => .fault (.runOutsideDmem ((s.slot i).bufBase.toNat + s.pos.toNat))
    | none => k s.sampleBytes
  else k s.held

/-- The end of the sample step at POS: WORK holds the crossfade phase's result and POS becomes POS + bs
(43_mixer R172 to R174). w is WORK as that phase left it. -/
def State.endSample (w : List Work) (s : State) : State :=
  { s with work := w, pos := BitVec.ofNat 32 (s.pos.toNat + s.bs), beat := 0, held := [] }.advance

/-- One byte of a sample written, the rest held. -/
def State.endByte (rest : List Byte) (s : State) : State := { s with beat := s.beat + 1, held := rest }

/-- A sample step (43_mixer R172 to R174): the output bytes not yet written, and the step's end. -/
def State.sampleStep (s : State) : Host.Outcome State Fault Refusal :=
  s.runLoad fun bytes => s.runStore bytes (State.endSample s.crossfadePhase)

/-- One byte of a sample step's write, in ascending order (20_memory R70, R74); the last one ends the
step. -/
def State.sampleByte (s : State) : Host.Outcome State Fault Refusal :=
  if s.beat + 1 < s.bs then
    s.runLoad fun bytes => s.runStore (bytes.take 1) (State.endByte (bytes.drop 1))
  else s.sampleStep

/-- A tail write (43_mixer R176): 0x00 to the next output byte. -/
def State.tailStep (s : State) : Host.Outcome State Fault Refusal :=
  s.runStore [0x00] fun t => { t with beat := t.beat + 1 }.advance

/-- The finish (43_mixer R178): WORK is written back to the slots below N, PHASE is IDLE, DONE is 1. -/
def State.finishRun (s : State) : State :=
  { s with
    slots := s.slots.mapIdx fun i x => if i < s.count then Slot.store x (s.workAt i) else x
    phase := .idle, beat := 0, held := [], tainted := false }.complete

/-- The sequencer's next run step (43_mixer R172 to R178); nothing when PHASE is IDLE (60 R250). -/
def State.runStep (s : State) : Host.Outcome State Fault Refusal :=
  match s.nextPhase with
  | .idle => .next s
  | .sample => s.advance.sampleStep
  | .tail => s.advance.tailStep
  | .finish => .next s.finishRun

/-- The sequencer's next single byte of a sample's write, or its next run step (entry 7). -/
def State.runByte (s : State) : Host.Outcome State Fault Refusal :=
  match s.nextPhase with
  | .sample => s.advance.sampleByte
  | .idle => s.runStep
  | .tail => s.runStep
  | .finish => s.runStep

end Sys2Proof.Machine
end

