-- ==== Sys2Proof/Machine/Port.lean ====
section
/-! DEFINITION. The register port and its map (10_state R20 to R49), the host's DMEM accesses, and what
each event does (30_encoding R90, 70_reset_and_hazards R262 to R267). -/

namespace Sys2Proof.Machine

/-- 10_state R40: the fields of a slot. -/
inductive SlotField
  | volume
  | tlen
  | tcur
  | tfrom
  | tto
  | bufBase
  | bufLen
  deriving DecidableEq, Repr

/-- 10_state R22: the registers. -/
inductive Reg
  | id
  | cmd
  | status
  | irqEn
  | length
  | bitdepth
  | channels
  | nbuf
  | nrec
  | outBase
  | opa
  | opb
  | opc
  | res
  | pos
  | param
  | slot (i : Nat) (f : SlotField)
  deriving DecidableEq, Repr

/-- 10_state R40: the field at an offset in a slot; none at the reserved word 0x38. -/
def slotFieldAt (offset : Nat) : Option SlotField :=
  match offset with
  | 0x00 => some .volume
  | 0x08 => some .tlen
  | 0x10 => some .tcur
  | 0x18 => some .tfrom
  | 0x20 => some .tto
  | 0x28 => some .bufBase
  | 0x30 => some .bufLen
  | _ => none

/-- 10_state R40: the slot register at a byte offset from 0x100 on; none for a slot index at or above
MAX_SOURCES (R21). -/
def slotRegAt (c : Config) (offset : Nat) : Option Reg :=
  if (offset - 0x100) / 0x40 < c.maxSources then
    (slotFieldAt ((offset - 0x100) % 0x40)).map (Reg.slot ((offset - 0x100) / 0x40))
  else none

/-- 10_state R22: the register at a byte offset of the port; none where R21 maps none. -/
def regAtOffset (c : Config) (offset : Nat) : Option Reg :=
  match offset with
  | 0x000 => some .id
  | 0x008 => some .cmd
  | 0x010 => some .status
  | 0x018 => some .irqEn
  | 0x020 => some .length
  | 0x028 => some .bitdepth
  | 0x030 => some .channels
  | 0x038 => some .nbuf
  | 0x040 => some .nrec
  | 0x048 => some .outBase
  | 0x050 => some .opa
  | 0x058 => some .opb
  | 0x060 => some .opc
  | 0x068 => some .res
  | 0x070 => some .pos
  | 0x078 => some .param
  | o => if o < 0x100 then none else slotRegAt c o

/-- The register an access names: the port carries the offset bits 11:3 (10_state R20). -/
def regAt (c : Config) (word : BitVec 9) : Option Reg := regAtOffset c (8 * word.toNat)

/-- ID (10_state R23): ID[63:48] = 0, ID[47:32] = 0x0001, ID[31:0] = 0x5242_4D58. -/
def idWord : Word := 0x0000000152424D58

/-- PARAM (10_state R37): MAX_SOURCES in 7:0, SUPPORT_24 in 8, TABLE_SIZE in 31:16, the rest 0. -/
def paramWord (c : Config) : Word :=
  BitVec.ofNat 32 0 ++ BitVec.ofNat 16 c.tableSize ++ BitVec.ofNat 7 0 ++ BitVec.ofBool c.support24 ++
    BitVec.ofNat 8 c.maxSources

/-- A slot field as it reads (10_state R49). -/
def Slot.get (x : Slot) : SlotField → Word
  | .volume => x.volume
  | .tlen => x.tlen
  | .tcur => x.tcur
  | .tfrom => x.tfrom
  | .tto => x.tto
  | .bufBase => x.bufBase
  | .bufLen => x.bufLen

/-- A slot field written (10_state R49). -/
def Slot.put (x : Slot) (f : SlotField) (v : Word) : Slot :=
  match f with
  | .volume => { x with volume := v }
  | .tlen => { x with tlen := v }
  | .tcur => { x with tcur := v }
  | .tfrom => { x with tfrom := v }
  | .tto => { x with tto := v }
  | .bufBase => { x with bufBase := v }
  | .bufLen => { x with bufLen := v }

/-- What a register reads as (10_state R22 to R49): CMD reads 0, and the 32-bit registers and IRQ_EN read
0 in their upper bits (R27, R39). -/
def State.regValue (s : State) : Reg → Word
  | .id => idWord
  | .cmd => 0
  | .status => s.statusWord
  | .irqEn => flagBit s.irqEn 0
  | .length => s.length.setWidth 64
  | .bitdepth => s.bitdepth.setWidth 64
  | .channels => s.channels.setWidth 64
  | .nbuf => s.nbuf.setWidth 64
  | .nrec => s.nrec.setWidth 64
  | .outBase => s.outBase
  | .opa => s.opa
  | .opb => s.opb
  | .opc => s.opc
  | .res => s.res
  | .pos => s.pos.setWidth 64
  | .param => paramWord s.cfg
  | .slot i f => (s.slot i).get f

/-- A read of STATUS that returns BUSY = 0 ends the host's duties (70 R266; entry 6). -/
def State.endDuties (s : State) : State := if s.busy then s else { s with duties := [] }

/-- A register read (10_state R20, 44_control R206): the value is returned; no effect on the block. -/
def State.readReg (s : State) (word : BitVec 9) : State :=
  match regAt s.cfg word with
  | none => { s with regData := 0 }
  | some .status => { s with regData := s.statusWord }.endDuties
  | some r => { s with regData := s.regValue r }

/-- The host-writable registers that a run reads, or that the direct commands read (10_state R28 to R34,
R39 to R49); read-only registers ignore the write (R22). -/
def State.putReg (s : State) (r : Reg) (v : Word) : State :=
  match r with
  | .length => { s with length := v.setWidth 32 }
  | .bitdepth => { s with bitdepth := v.setWidth 32 }
  | .channels => { s with channels := v.setWidth 32 }
  | .nbuf => { s with nbuf := v.setWidth 32 }
  | .nrec => { s with nrec := v.setWidth 32 }
  | .outBase => { s with outBase := v }
  | .opa => { s with opa := v }
  | .opb => { s with opb := v }
  | .opc => { s with opc := v }
  | .slot i f => s.setSlot i ((s.slot i).put f v)
  | .id => s
  | .cmd => s
  | .status => s
  | .irqEn => s
  | .res => s
  | .pos => s
  | .param => s

/-- A write to CMD (10_state R24, 44_control R200 to R202): dropped while BUSY, its word not decoded;
else the command it spells, or ILLEGAL_CMD (30_encoding R83). -/
def State.writeCmd (s : State) (v : Word) : Host.Outcome State Fault Refusal :=
  if s.busy then .next s.drop
  else
    match decode v with
    | .command i => exec i s
    | .illegal _ => .next (s.accept.raise .illegalCmd 0)

/-- A register write (10_state R20 to R49): STATUS, IRQ_EN and CMD at any time, every other register only
while BUSY is 0 (R38). -/
def State.writeReg (s : State) (word : BitVec 9) (v : Word) : Host.Outcome State Fault Refusal :=
  match regAt s.cfg word with
  | none => .next s
  | some .cmd => s.writeCmd v
  | some .status => .next (s.clearStatus v)
  | some .irqEn => .next { s with irqEn := v.getLsbD 0 }
  | some r => if s.busy then .next s else .next (s.putReg r v)

/-- An access on the register port (10_state R20). -/
def State.portAccess (s : State) : RegAccess → Host.Outcome State Fault Refusal
  | .write word v => s.writeReg word v
  | .read word => .next (s.readReg word)

/-! ## The host's DMEM accesses -/

/-- A host write of these addresses falls in a window that the duty forbids (70 R266). -/
def Duty.broken (d : Duty) (w : Window) : Bool := d.out.meets w || d.ins.any fun v => v.meets w

/-- What breaking a duty does (70 R266): every byte of that run's output window takes any value. -/
def State.breach (w : Window) (s : State) (d : Duty) : State := if d.broken w then s.havoc d.out else s

/-- The duty of the run in progress is the newest one. -/
def State.breaksRun (s : State) (w : Window) : Bool :=
  s.busy && (s.duties.head?.any fun d => d.broken w)

/-- How many of the n addresses from a on exist: those below MEM_SIZE (20_memory R60). -/
def State.existing (s : State) (a n : Nat) : Nat := min n (s.cfg.memSize - a)

/-- Bytes of the host stored where addresses exist, and what follows where that breaks a duty: the output
window of that run takes free values, and the run in progress goes on to write free values (70 R266;
entry 5). -/
def State.hostStore (s : State) (a : Nat) (bytes : List Byte) : State :=
  { s.duties.foldl (State.breach { base := a, size := bytes.length })
      { s with mem := s.mem.writeBytes a bytes } with
    tainted := s.tainted || s.breaksRun { base := a, size := bytes.length } }

/-- MWB (30_encoding R90): the bytes are written where addresses exist; a byte past DMEM goes nowhere, and
nothing stops (70 R277). DESIGN CHOICE, unsafe (entry 10). All the bytes are written in one step, with no
byte of a run between them: 20_memory R70 promises that of single bytes only, so this is the model's
choice. DESIGN CHOICE (entry 28). -/
def State.hostWrite (s : State) (a : Nat) (bytes : List Byte) : State :=
  s.hostStore a (bytes.take (s.existing a bytes.length))

/-- MRB (30_encoding R90, 70 R267): n bytes; no effect on the block. A byte past DMEM reads a free value, and
nothing stops (70 R277). DESIGN CHOICE (entry 10). All the bytes are read in one step, so they show one
instant of a run: 20_memory R70 promises that of single bytes only, and a read that a run's writes may fall
into is a sequence of reads of one byte. DESIGN CHOICE, unsafe (entry 28). -/
def State.hostRead (s : State) (a n : Nat) : State :=
  { s with
    memData := s.mem.readBytes a (s.existing a n) ++ s.freeBytes (n - s.existing a n)
    draws := s.draws + (n - s.existing a n) }

/-! ## Events -/

/-- The offset of STATUS as the port carries it (10_state R22). -/
def statusPort : BitVec 9 := 0x010 / 8

/-- The offset of CMD as the port carries it (10_state R22). -/
def cmdPort : BitVec 9 := 0x008 / 8

/-- The event put back: it is not over. -/
def State.again (e : Event) : Host.Outcome State Fault Refusal → Host.Outcome State Fault Refusal
  | .next t => .next { t with inputs := e :: t.inputs }
  | .fault r => .fault r
  | .refused r => .refused r

/-- WAIT (30_encoding R90): one RD STATUS; while it shows BUSY the sequencer takes a step and the host
polls again (70 R277; entry 15). -/
def State.poll (s : State) : Host.Outcome State Fault Refusal :=
  if s.busy then State.again .wait (s.readReg statusPort).runStep else .next (s.readReg statusPort)

/-- What one event does. Reset wins over a register access in the same step, which is lost (70 R263). -/
def State.perform (s : State) : Event → Host.Outcome State Fault Refusal
  | .reg a => s.portAccess a
  | .memWrite a bytes => .next (s.hostWrite a.toNat bytes)
  | .memRead a n => .next (s.hostRead a.toNat n)
  | .wait => s.poll
  | .runStep => s.runStep
  | .runByte => s.runByte
  | .reset _ => .next s.resetInput

/-- The next thing that happens: the next event listed, and with none listed the sequencer's next run
step (70 R277; entry 2). -/
def State.proceed (s : State) : Host.Outcome State Fault Refusal :=
  match s.inputs with
  | [] => s.runStep
  | e :: rest => { s with inputs := rest }.perform e

/-- The host about to write this word to CMD (entry 2). -/
def State.withCommand (s : State) (v : Word) : State :=
  { s with inputs := .reg (.write cmdPort v) :: s.inputs }

end Sys2Proof.Machine
end

