-- ==== Sys2Proof/Machine/Step.lean ====
section
/-! DEFINITION. One step of the machine, and how a command word comes to be the next thing it does. -/

namespace Sys2Proof.Machine

/-- One step: the next event, or the sequencer's next run step (entry 2). -/
def step (s : State) : Host.Outcome State Fault Refusal := s.proceed

/-- The state with a command word of the opcode table about to be written to CMD, which is how RBMIX gets
its commands (10_state R24, R53; entry 2). Bits at or above nbits are 0. -/
def State.withFetchWord (s : State) (nbits w : Nat) : State :=
  s.withCommand (BitVec.ofNat 64 (w % 2 ^ nbits))

end Sys2Proof.Machine
end

