-- ==== Sys2Proof/Safety.lean ====
section
/-! DEFINITION. The terms the statements use: the invariant of the machine, the events that leave a run
alone, the whole of a MIX as one function of the state that issues it, and the exact value of a binary64
pattern. -/

namespace Sys2Proof.Machine

/-! ## The invariant -/

/-- The parameters are legal (00_scope R6), and there are MAX_SOURCES slots and WORK entries (10_state
R40, R51). -/
abbrev State.ShapeOk (s : State) : Prop :=
  s.cfg.Legal ∧ s.slots.length = s.cfg.maxSources ∧ s.work.length = s.cfg.maxSources

/-- STATUS is as 10_state R25 and 60_exceptions R222, R230 leave it: never DONE with ERR; ERR only with a
code, DONE only without; no reserved code; a slot index only with codes 0x08 to 0x0A, and one that
exists. -/
abbrev State.FlagsOk (s : State) : Prop :=
  (s.done = true → s.err = false ∧ s.errcode = 0) ∧ (s.err = true → s.errcode ≠ 0) ∧
    s.errcode.toNat ≤ 0x0A ∧ (s.errslot ≠ 0 → 0x08 ≤ s.errcode.toNat) ∧
    s.errslot.toNat < s.cfg.maxSources

/-- DMEM is in its canonical form and lists only addresses below MEM_SIZE (20_memory R60). -/
abbrev State.MemOk (s : State) : Prop :=
  Memory.wf s.mem = true ∧ ∀ c ∈ s.mem, c.1 < s.cfg.memSize

/-- Every output window the host has a duty for lies inside DMEM (20_memory R67). -/
abbrev State.DutiesOk (s : State) : Prop :=
  ∀ d ∈ s.duties, s.inDmem d.out.base d.out.size = true

/-- A run in progress is one that validation accepted (10_state R38, 20_memory R67), no report of an
earlier command is left, and POS is a whole number of samples (43_mixer R172). -/
abbrev State.RunOk (s : State) : Prop :=
  s.phase ≠ .idle →
    s.done = false ∧ s.err = false ∧ s.errcode = 0 ∧ s.mixError = none ∧
      s.pos.toNat % s.bs = 0 ∧ s.pos.toNat ≤ s.req ∧ s.duties.head? = some s.runDuty

/-- PHASE agrees with POS and the bytes written past it (43_mixer R172, R176; 10_state R51), and the bytes
held are those of the current sample still to write (20_memory R74). -/
abbrev State.PhaseOk (s : State) : Prop :=
  (s.held.length = if s.phase = .sample ∧ s.beat ≠ 0 then s.bs - s.beat else 0) ∧
    (s.phase = .idle → s.beat = 0 ∧ s.tainted = false) ∧
    (s.phase = .sample →
      (s.pos.toNat + s.bs ≤ s.len ∧ s.beat < s.bs) ∨
        (s.len < s.bs ∧ s.pos.toNat = 0 ∧ s.beat = 0)) ∧
    (s.phase = .tail → s.pos.toNat = s.req ∧ s.req + s.beat < s.len) ∧
    (s.phase = .finish → s.pos.toNat = s.req ∧ s.req + s.beat = s.len)

/-- The invariant every step keeps. -/
abbrev State.Inv (s : State) : Prop :=
  s.ShapeOk ∧ s.FlagsOk ∧ s.MemOk ∧ s.DutiesOk ∧ s.RunOk ∧ s.PhaseOk

/-! ## A whole MIX as one function (43_mixer R165, R179) -/

/-- The record of source i after a number of frames of a run that starts in s (43_mixer R173). -/
def State.recordAfter (s : State) (frames i : Nat) : Work :=
  (crossfade s.cfg (s.slot i).tfrom (s.slot i).tto)^[frames] (s.slot i).record

/-- The volume-scaled value of source i in sample j of a run that starts in s: the sample's frame has had
its crossfade step (43_mixer R163, R173, R174). -/
def State.inputValue (s : State) (j i : Nat) : F64 :=
  fmul (decodeSample (s.mem.readBytes ((s.slot i).bufBase.toNat + j * s.bs) s.bs) s.bs)
    (s.recordAfter (j / s.channels.toNat + 1) i).vol

/-- The bytes of output sample j of a run that starts in s (43_mixer R174). -/
def State.outputSample (s : State) (j : Nat) : List Byte :=
  encodeSample (mixFold ((List.range s.count).map (s.inputValue j))) s.bs

/-- All LENGTH output bytes of a run that starts in s (43_mixer R174, R176). -/
def State.output (s : State) : List Byte :=
  (List.range (s.len / s.bs)).flatMap s.outputSample ++ List.replicate (s.len - s.req) 0x00

/-- How many frames a run that starts in s begins (43_mixer R177). -/
def State.frames (s : State) : Nat := (s.len / s.bs + (s.channels.toNat - 1)) / s.channels.toNat

/-- How many steps a run takes after its acceptance: sample steps, tail writes, finish (70 R276). -/
def State.runLength (s : State) : Nat := s.len / s.bs + s.len % s.bs + 1

/-- The state after a whole MIX issued in s, as one step (43_mixer R179). -/
def State.mixWhole (s : State) : State :=
  { s with
    done := true, err := false, errcode := 0, errslot := 0
    pos := BitVec.ofNat 32 s.req
    phase := .idle, beat := 0, held := [], tainted := false
    mem := Memory.writeBytes s.mem s.outBase.toNat s.output
    slots := s.slots.mapIdx fun i x =>
      if i < s.count then Slot.store x (s.recordAfter s.frames i) else x
    work := s.work.mapIdx fun i r => if i < s.count then s.recordAfter s.frames i else r
    duties := s.runDuty :: s.duties }

/-- An event that starts no run, ends none early and keeps the host's duty: no CMD write, no host DMEM
write, no reset (70 R265, R266). -/
def Event.quiet : Event → Bool
  | .reg (.write word _) => word != cmdPort
  | .reg (.read _) => true
  | .memWrite _ _ => false
  | .memRead _ _ => true
  | .wait => true
  | .runStep => true
  | .runByte => true
  | .reset _ => false

/-- A host write of n bytes from a on touches a window that the duty forbids (70 R266), by its addresses. -/
abbrev Duty.TouchedBy (d : Duty) (a n : Nat) : Prop :=
  ∃ x, a ≤ x ∧ x < a + n ∧ (d.out.has x = true ∨ ∃ v ∈ d.ins, v.has x = true)

/-! ## How a command ends -/

/-- s after a command that completed and changed nothing else: acceptance, then completion (44_control
R201, R203). -/
def State.completed (s : State) : State :=
  { s with done := true, err := false, errcode := 0, errslot := 0 }

/-- s after a rejected command: acceptance, then error entry (44_control R201, 60_exceptions R230). -/
def State.rejected (s : State) (code : BitVec 8) (slot : Nat) : State :=
  { s with done := false, err := true, errcode := code, errslot := BitVec.ofNat 16 slot }

/-- s after a command dropped while BUSY (44_control R202). -/
def State.discarded (s : State) : State := { s with dropped := true }

/-- The words that spell a command (30_encoding R80 to R83), by arithmetic on the word: RSV is 0, and OP is
one of the eight with every field its format does not use 0. -/
abbrev SpellsCommand (v : Word) : Prop :=
  v.toNat / 2 ^ 32 = 0 ∧
    ((v.toNat = 0x00 ∨ v.toNat = 0x01 ∨ v.toNat = 0x20 ∨ v.toNat = 0x30) ∨
      ((v.toNat % 2 ^ 8 = 0x10 ∨ v.toNat % 2 ^ 8 = 0x11) ∧ v.toNat / 2 ^ 16 = 0) ∨
      ((v.toNat % 2 ^ 8 = 0x21 ∨ v.toNat % 2 ^ 8 = 0x40) ∧ v.toNat / 2 ^ 8 % 2 ^ 8 = 0))

/-- The offset bits 11:3 of a byte offset of the register port (10_state R20). -/
def portOf (offset : Nat) : BitVec 9 := BitVec.ofNat 9 (offset / 8)

/-! ## The checks of a MIX, spelled out (43_mixer R167 to R169) -/

/-- REQ, from the registers (20_memory R66). -/
def State.wholeBytes (s : State) : Nat :=
  s.length.toNat / (s.bitdepth.toNat / 8) * (s.bitdepth.toNat / 8)

/-- Checks 1 to 6 pass. -/
abbrev State.FormatOk (s : State) : Prop :=
  s.nbuf = s.nrec ∧ s.nbuf.toNat ≤ s.cfg.maxSources ∧ s.bitdepth.toNat % 8 = 0 ∧
    s.cfg.AcceptsWidth (s.bitdepth.toNat / 8) ∧ s.channels ≠ 0 ∧
    ¬(0 < s.length.toNat ∧ s.cfg.memSize < s.outBase.toNat + s.length.toNat)

/-- Check 7 fails for slot i. -/
abbrev State.ShortBuffer (s : State) (i : Nat) : Prop := (s.slot i).bufLen.toNat < s.wholeBytes

/-- Check 8 fails for slot i. -/
abbrev State.BufferOutside (s : State) (i : Nat) : Prop :=
  0 < s.wholeBytes ∧ s.cfg.memSize < (s.slot i).bufBase.toNat + s.wholeBytes

/-- Check 9 fails for slot i. -/
abbrev State.BufferOverlaps (s : State) (i : Nat) : Prop :=
  0 < s.wholeBytes ∧ 0 < s.length.toNat ∧
    s.outBase.toNat < (s.slot i).bufBase.toNat + s.wholeBytes ∧
    (s.slot i).bufBase.toNat < s.outBase.toNat + s.length.toNat

/-- Every check passes. -/
abbrev State.AcceptsMix (s : State) : Prop :=
  s.FormatOk ∧
    ∀ i < s.nbuf.toNat, ¬s.ShortBuffer i ∧ ¬s.BufferOutside i ∧ ¬s.BufferOverlaps i

/-! ## Exact values -/

/-- A pattern that is neither a NaN nor an infinity. -/
abbrev FiniteF64 (x : F64) : Prop := fExp x ≠ 2047

/-- The exact value of a finite pattern, in units of 2^-1074 (00_scope R10). -/
def fInt (x : F64) : Int := signedInt (fSign x) (fUnits x)

/-- r is n/d units of 2^-1074 rounded to binary64 by roundTiesToEven, d > 0 (00_scope R10): an infinity
from halfway past the largest finite value on; else a finite value no other is nearer than, and even
where another is as near. -/
def RoundsTo (r : F64) (n : Int) (d : Nat) : Prop :=
  if (2 ^ 54 - 1) * 2 ^ 2044 * d ≤ n.natAbs then r = fInf (n < 0)
  else
    FiniteF64 r ∧
      ∀ y : F64, FiniteF64 y →
        (n - fInt r * d).natAbs ≤ (n - fInt y * d).natAbs ∧
          ((n - fInt r * d).natAbs = (n - fInt y * d).natAbs → fInt y ≠ fInt r → fFrac r % 2 = 0)

end Sys2Proof.Machine
end

