-- ==== Sys2Proof/Certificates/Slice0/Obligations.lean ====
section
/-! DEFINITION. What is stated of the machine, for the provers. Each docstring names the rule of spec/ it
formalises, or says that it rests on the model's own choice and names the log entry. -/

open Sys2Proof Sys2Proof.Machine

/-! ## The command word (30_encoding) -/

/-- Decoding the word of a well-formed command gives it back (30_encoding R81, R82, R89). -/
def Obligations.DecodeOfEncode : Prop :=
  ∀ i : Instr, i.WellFormed → decode (encode i) = .command i

/-- A word that decodes to a command is the one word of that command, so no bit of it is ignored
(30_encoding R81, R87). -/
def Obligations.EncodeOfDecode : Prop :=
  ∀ (v : Word) (i : Instr), decode v = .command i → i.WellFormed ∧ encode i = v

/-- 30_encoding R83: which words are well-formed, and that every other word is rejected with ILLEGAL_CMD
and has no other effect. -/
def Obligations.IllegalWordsAreRejected : Prop :=
  ∀ v : Word,
    ((∃ i, decode v = .command i) ↔ SpellsCommand v) ∧
      ∀ s : State, s.phase = .idle → ¬SpellsCommand v → s.writeCmd v = .next (s.rejected 0x01 0)

/-- The words 30_encoding R89 writes out decode to the commands it names. -/
def Obligations.WrittenOutWordsDecode : Prop :=
  decode 0x0000000000000000 = .command .nop ∧ decode 0x0000000000000001 = .command .mix ∧
    decode 0x0000000000000020 = .command .ease ∧ decode 0x0000000000000030 = .command .mix2 ∧
    decode 0x0000000000000210 = .command (.dec 2) ∧ decode 0x0000000000000311 = .command (.enc 3) ∧
    decode 0x0000000007CF0021 = .command (.lutrd 1999) ∧
    decode 0x0000000000050040 = .command (.xstep 5)

/-- A step runs the command that the word about to be written to CMD decodes to (10_state R24), and
`withFetchWord` makes that word the next event (entry 2). -/
def Obligations.StepRunsTheDecodedCommand : Prop :=
  (∀ (s : State) (v : Word) (i : Instr) (rest : List Event),
      s.inputs = .reg (.write (portOf 0x008) v) :: rest → decode v = .command i →
        step s = exec i { s with inputs := rest }) ∧
    ∀ (s : State) (i : Instr), i.WellFormed → step (s.withFetchWord 64 (encode i).toNat) = exec i s

/-! ## The commands: their results, their errors, and that nothing else changes -/

/-- 44_control R205: NOP, while idle and while BUSY, and every word with its opcode. -/
def Obligations.NopOnlyUpdatesStatus : Prop :=
  ∀ s : State,
    (s.phase = .idle → exec .nop s = .next s.completed) ∧
      (s.phase ≠ .idle → exec .nop s = .next s.discarded) ∧
      (∀ v : Word, s.phase = .idle → v.toNat % 2 ^ 8 = 0x00 →
        s.writeCmd v = .next (if v = 0 then s.completed else s.rejected 0x01 0)) ∧
      (s.phase = .idle → s.statusWord = 0x504 → s.completed.statusWord = 0x2)

/-- 40_codec R110, R111: DEC. `decodeSample` is R100's Decode (stated on its own in
DecodeDividesTheSignedInteger). -/
def Obligations.DecDecodesOneSample : Prop :=
  ∀ (s : State) (w : Nat),
    (s.phase = .idle → s.cfg.AcceptsWidth w →
        exec (.dec w) s =
          .next { s.completed with res := decodeSample (toLE w s.opa.toNat) w }) ∧
      (s.phase = .idle → ¬s.cfg.AcceptsWidth w → exec (.dec w) s = .next (s.rejected 0x05 0)) ∧
      (s.phase ≠ .idle → exec (.dec w) s = .next s.discarded) ∧
      (∀ v : Word, s.phase = .idle → v.toNat % 2 ^ 8 = 0x10 →
        s.writeCmd v =
          if v.toNat < 2 ^ 16 then exec (.dec (v.toNat / 2 ^ 8)) s else .next (s.rejected 0x01 0)) ∧
      ((toLE w s.opa.toNat).length = w ∧
        ∀ k < w, (toLE w s.opa.toNat)[k]? = some (s.opa.extractLsb' (8 * k) 8)) ∧
      decodeSample (toLE 1 0xFFFFFFFFFFFFFF80) 1 = 0xBFF0204081020408 ∧
      decodeSample (toLE 2 0x7FFF) 2 = 0x3FF0000000000000

/-- 40_codec R112, R113: ENC. `encodeSample` is R103's Encode (its bytes and its integer are stated on their
own, for every value, in EncodeStaysInRange). -/
def Obligations.EncEncodesOneValue : Prop :=
  ∀ (s : State) (w : Nat),
    (s.phase = .idle → s.cfg.AcceptsWidth w →
        ∃ r : Word,
          exec (.enc w) s = .next { s.completed with res := r } ∧ r.toNat < 2 ^ (8 * w) ∧
            (encodeSample s.opa w).length = w ∧
            ∀ k < w, (encodeSample s.opa w)[k]? = some (r.extractLsb' (8 * k) 8)) ∧
      (s.phase = .idle → ¬s.cfg.AcceptsWidth w → exec (.enc w) s = .next (s.rejected 0x05 0)) ∧
      (s.phase ≠ .idle → exec (.enc w) s = .next s.discarded) ∧
      (∀ v : Word, s.phase = .idle → v.toNat % 2 ^ 8 = 0x11 →
        s.writeCmd v =
          if v.toNat < 2 ^ 16 then exec (.enc (v.toNat / 2 ^ 8)) s else .next (s.rejected 0x01 0)) ∧
      (fIsNaN s.opa = true → encodeSample s.opa w = List.replicate w 0) ∧
      (s.cfg.AcceptsWidth w →
        encodeSample 0x8000000000000000 w = List.replicate w 0 ∧
          encodeSample 0x3FEFFFFFFFFFFFFF w = toLE w (2 ^ (8 * w - 1) - 2)) ∧
      encodeSample 0x3FE0000000000000 2 = toLE 2 0x3FFF

/-- 41_easing R122, R130, R132: EASE. -/
def Obligations.EaseInterpolates : Prop :=
  ∀ s : State,
    (s.phase = .idle →
        exec .ease s =
          .next
            { s.completed with
              res :=
                fadd s.opb
                  (fmul (fsub s.opc s.opb)
                    (easeTable s.cfg
                      (ffloor
                        (fmul
                          (if fIsNaN s.opa = true ∨ fLt s.opa 0x0000000000000000 = true then
                            0x0000000000000000
                          else if fLt 0x3FF0000000000000 s.opa = true then 0x3FF0000000000000
                          else s.opa)
                          (i2f (s.cfg.tableSize - 1 : Nat)))))) }) ∧
      (s.phase ≠ .idle → exec .ease s = .next s.discarded) ∧
      (∀ v : Word, s.phase = .idle → v.toNat % 2 ^ 8 = 0x20 →
        s.writeCmd v = if v = 0x20 then exec .ease s else .next (s.rejected 0x01 0)) ∧
      ease Config.default 0x3FE0000000000000 0 0x3FF0000000000000 = 0x3FBFF9DB22D5314E

/-- 41_easing R131, R132: LUTRD. -/
def Obligations.LutrdReadsTheTable : Prop :=
  ∀ (s : State) (idx : Nat),
    (s.phase = .idle → idx < s.cfg.tableSize →
        exec (.lutrd idx) s = .next { s.completed with res := easeTable s.cfg idx }) ∧
      (s.phase = .idle → s.cfg.tableSize ≤ idx → exec (.lutrd idx) s = .next (s.rejected 0x01 0)) ∧
      (s.phase ≠ .idle → exec (.lutrd idx) s = .next s.discarded) ∧
      (∀ v : Word, s.phase = .idle → v.toNat % 2 ^ 8 = 0x21 →
        s.writeCmd v =
          if v.toNat / 2 ^ 32 = 0 ∧ v.toNat / 2 ^ 8 % 2 ^ 8 = 0 then
            exec (.lutrd (v.toNat / 2 ^ 16)) s
          else .next (s.rejected 0x01 0)) ∧
      (s.cfg.Legal → easeTable s.cfg 0 = 0 ∧ easeTable s.cfg (s.cfg.tableSize - 1) = 0x3FF0000000000000)

/-- 43_mixer R160, R164: MIX2. -/
def Obligations.Mix2MixesTwoValues : Prop :=
  ∀ s : State,
    (s.phase = .idle →
        exec .mix2 s =
          .next
            { s.completed with
              res :=
                fmul (fsub 0x3FF0000000000000 (fabs (fmul s.opa s.opb))) (fadd s.opa s.opb) }) ∧
      (s.phase ≠ .idle → exec .mix2 s = .next s.discarded) ∧
      (∀ v : Word, s.phase = .idle → v.toNat % 2 ^ 8 = 0x30 →
        s.writeCmd v = if v = 0x30 then exec .mix2 s else .next (s.rejected 0x01 0)) ∧
      (fIsNaN s.opa = true ∨ fIsNaN s.opb = true → mixPair s.opa s.opb = 0x7FF8000000000000) ∧
      mixPair 0x3FE0000000000000 0xBFE0000000000000 = 0

/-- XSTEP (42_crossfade R142, R144, R146), with the crossfade step spelled out. An INACTIVE slot is left
unchanged (R141). Where R146's corner case, that TLEN = 0 ends at once, and R142 differ (TLEN = 0 with
TCUR ≤ -2, and the wrap of R147), this follows R142: the model's choice, entry 27. -/
def Obligations.XstepStepsOneSlot : Prop :=
  ∀ (s : State) (idx : Nat) (x : Slot),
    (s.phase = .idle → idx < s.cfg.maxSources → s.slots[idx]? = some x → 0 ≤ x.tlen.toInt →
        exec (.xstep idx) s =
          .next
            { s.completed with
              slots :=
                s.slots.set idx
                  { x with
                    tcur := x.tcur + 1
                    volume :=
                      if x.tlen.toInt ≤ (x.tcur + 1).toInt then x.tto
                      else
                        ease s.cfg (fdiv (i2f (x.tcur + 1).toInt) (i2f x.tlen.toInt)) x.tfrom x.tto
                    tlen :=
                      if x.tlen.toInt ≤ (x.tcur + 1).toInt then 0xFFFFFFFFFFFFFFFF else x.tlen } }) ∧
      (s.phase = .idle → idx < s.cfg.maxSources → s.slots[idx]? = some x → x.tlen.toInt < 0 →
        exec (.xstep idx) s = .next s.completed) ∧
      (s.phase = .idle → s.cfg.maxSources ≤ idx → exec (.xstep idx) s = .next (s.rejected 0x01 0)) ∧
      (s.phase ≠ .idle → exec (.xstep idx) s = .next s.discarded) ∧
      (∀ v : Word, s.phase = .idle → v.toNat % 2 ^ 8 = 0x40 →
        s.writeCmd v =
          if v.toNat / 2 ^ 32 = 0 ∧ v.toNat / 2 ^ 8 % 2 ^ 8 = 0 then
            exec (.xstep (v.toNat / 2 ^ 16)) s
          else .next (s.rejected 0x01 0))

/-- Acceptance (43_mixer R170): a MIX that passes every check of R167 is accepted: WORK is loaded from the
slots below N, POS is 0, PHASE is SAMPLE, and nothing else of the block changes. `beat` and `held` (entry
7), the duties (entry 6) and the mark `tainted` (entry 5) are the model's own record of the run. -/
def Obligations.AcceptedMixStartsARun : Prop :=
  ∀ s : State,
    (s.phase = .idle → s.AcceptsMix →
        ∃ t, exec .mix s = .next t ∧
          t =
            { s with
              done := false, err := false, errcode := 0, errslot := 0, pos := 0, beat := 0, held := []
              phase := .sample, work := t.work, tainted := false, duties := t.duties } ∧
          (∀ i < s.work.length, i < s.nbuf.toNat →
            t.work[i]? =
              some { vol := (s.slot i).volume, tlen := (s.slot i).tlen, tcur := (s.slot i).tcur }) ∧
          ∀ i, s.nbuf.toNat ≤ i → t.work[i]? = s.work[i]?) ∧
      (s.phase ≠ .idle → exec .mix s = .next s.discarded) ∧
      ∀ v : Word, s.phase = .idle → v.toNat % 2 ^ 8 = 0x01 →
        s.writeCmd v = if v = 0x01 then exec .mix s else .next (s.rejected 0x01 0)

/-- 43_mixer R167, R168, R169: the first check that fails, in this order and over ascending slots, gives
the code and the slot. -/
def Obligations.MixReportsTheFirstFailedCheck : Prop :=
  ∀ s : State, s.phase = .idle →
    (s.nbuf ≠ s.nrec → exec .mix s = .next (s.rejected 0x02 0)) ∧
      (s.nbuf = s.nrec →
        (s.cfg.maxSources < s.nbuf.toNat → exec .mix s = .next (s.rejected 0x03 0)) ∧
        (s.nbuf.toNat ≤ s.cfg.maxSources →
          (s.bitdepth.toNat % 8 ≠ 0 → exec .mix s = .next (s.rejected 0x04 0)) ∧
          (s.bitdepth.toNat % 8 = 0 →
            (¬s.cfg.AcceptsWidth (s.bitdepth.toNat / 8) →
              exec .mix s = .next (s.rejected 0x05 0)) ∧
            (s.cfg.AcceptsWidth (s.bitdepth.toNat / 8) →
              (s.channels = 0 → exec .mix s = .next (s.rejected 0x06 0)) ∧
              (s.channels ≠ 0 → 0 < s.length.toNat →
                s.cfg.memSize < s.outBase.toNat + s.length.toNat →
                exec .mix s = .next (s.rejected 0x07 0)))))) ∧
      (s.FormatOk →
        (∀ i < s.nbuf.toNat, s.ShortBuffer i → (∀ j < i, ¬s.ShortBuffer j) →
          exec .mix s = .next (s.rejected 0x08 i)) ∧
        ((∀ j < s.nbuf.toNat, ¬s.ShortBuffer j) →
          (∀ i < s.nbuf.toNat, s.BufferOutside i → (∀ j < i, ¬s.BufferOutside j) →
            exec .mix s = .next (s.rejected 0x09 i)) ∧
          ((∀ j < s.nbuf.toNat, ¬s.BufferOutside j) →
            ∀ i < s.nbuf.toNat, s.BufferOverlaps i → (∀ j < i, ¬s.BufferOverlaps j) →
              exec .mix s = .next (s.rejected 0x0A i))))

/-- 60_exceptions R229: a rejected command changes nothing but STATUS. -/
def Obligations.RejectedCommandsChangeOnlyStatus : Prop :=
  ∀ (s t : State) (v : Word), s.phase = .idle → s.writeCmd v = .next t → t.err = true →
    t = { s with done := false, err := true, errcode := t.errcode, errslot := t.errslot }

/-- Which codes each command can report (60_exceptions section 1): none for NOP, EASE and MIX2 once the
word spells them; ILLEGAL_CMD for LUTRD and XSTEP; FMT_WIDTH for DEC and ENC; 0x02 to 0x0A for MIX, with a
slot only from 0x08 on. -/
def Obligations.CommandsReportOnlyTheirCodes : Prop :=
  ∀ (s t : State) (i : Instr), s.phase = .idle → exec i s = .next t → t.err = true →
    match i with
    | .nop | .ease | .mix2 => False
    | .lutrd _ | .xstep _ => t.errcode = 0x01 ∧ t.errslot = 0
    | .dec _ | .enc _ => t.errcode = 0x05 ∧ t.errslot = 0
    | .mix =>
      0x02 ≤ t.errcode.toNat ∧ t.errcode.toNat ≤ 0x0A ∧ (t.errslot ≠ 0 → 0x08 ≤ t.errcode.toNat)

/-- 44_control R202: while BUSY every write to CMD only sets DROPPED, its word not even decoded. -/
def Obligations.CommandsWhileBusyAreDropped : Prop :=
  ∀ (s : State) (v : Word) (rest : List Event), s.phase ≠ .idle →
    s.inputs = .reg (.write (portOf 0x008) v) :: rest →
      step s = .next { s with inputs := rest, dropped := true }

/-- 10_state R35: RES changes only by a DEC, ENC, EASE, LUTRD or MIX2 that completes (and by reset). -/
def Obligations.ResChangesOnlyByItsCommands : Prop :=
  ∀ s t : State, step s = .next t → t.res ≠ s.res →
    (∃ lost rest, s.inputs = .reset lost :: rest) ∨
      ∃ v rest i, s.inputs = .reg (.write (portOf 0x008) v) :: rest ∧ s.phase = .idle ∧
        decode v = .command i ∧ t.done = true ∧ t.err = false ∧
        ((∃ w, i = .dec w) ∨ (∃ w, i = .enc w) ∨ i = .ease ∨ (∃ idx, i = .lutrd idx) ∨ i = .mix2)

/-- 10_state R48: the slot registers are written only by the host while BUSY is 0, by XSTEP, by a run's
finish and by reset. -/
def Obligations.SlotsChangeOnlyByTheirWriters : Prop :=
  ∀ s t : State, step s = .next t → t.slots ≠ s.slots →
    (∃ lost rest, s.inputs = .reset lost :: rest) ∨
      (s.phase ≠ .idle ∧ t.phase = .idle ∧ t.done = true) ∨
      (s.phase = .idle ∧
        ∃ word v rest, s.inputs = .reg (.write word v) :: rest ∧
          ((∃ i f, regAt s.cfg word = some (.slot i f)) ∨
            (word = portOf 0x008 ∧ ∃ idx, decode v = .command (.xstep idx))))

/-! ## Binary64 arithmetic (00_scope R10 to R12) -/

/-- Addition, subtraction, multiplication, division and conversion of finite operands give the exact
result rounded once, to nearest, ties to even, with overflow to infinity (00_scope R10, R12). A product or
quotient has the sign its operands give it; a zero sum is -0.0 only from two negative operands, and a zero
difference only from a negative operand less one that is not negative. Conversion is exact up to 2^53;
fabs clears the sign of all but a NaN. isnan, the comparisons, ffloor and ftrunc (R12) are what they say in
exact values. IEEE 754 itself is outside the spec (PRESUMED, entry 11). -/
def Obligations.ArithmeticRoundsOnceToNearestEven : Prop :=
  (∀ a b : F64, FiniteF64 a → FiniteF64 b →
      RoundsTo (fadd a b) (fInt a + fInt b) 1 ∧ RoundsTo (fsub a b) (fInt a - fInt b) 1 ∧
        RoundsTo (fmul a b) (fInt a * fInt b) (2 ^ 1074) ∧
        fSign (fmul a b) = (fSign a != fSign b) ∧
        (fInt a + fInt b = 0 → fSign (fadd a b) = (fSign a && fSign b)) ∧
        (fInt a - fInt b = 0 → fSign (fsub a b) = (fSign a && !fSign b)) ∧
        (fInt b ≠ 0 →
          RoundsTo (fdiv a b) (fInt a * 2 ^ 1074 * (fInt b).sign) (fInt b).natAbs ∧
            fSign (fdiv a b) = (fSign a != fSign b))) ∧
    (∀ n : Int, RoundsTo (i2f n) (n * 2 ^ 1074) 1 ∧
      (n.natAbs ≤ 2 ^ 53 → fInt (i2f n) = n * 2 ^ 1074)) ∧
    (∀ a : F64,
      (fIsNaN a = true ↔ fExp a = 2047 ∧ fFrac a ≠ 0) ∧
        (fIsNaN a = false → fSign (fabs a) = false ∧ (fabs a).toNat = a.toNat % 2 ^ 63) ∧
        (FiniteF64 a →
          fLt a 0x7FF0000000000000 = true ∧ fLt 0xFFF0000000000000 a = true ∧
            fLt 0x7FF0000000000000 a = false ∧ fLt a 0xFFF0000000000000 = false)) ∧
    (fLt 0xFFF0000000000000 0x7FF0000000000000 = true ∧ fLt 0x7FF0000000000000 0xFFF0000000000000 = false ∧
      fLt 0x7FF0000000000000 0x7FF0000000000000 = false ∧ fLt 0xFFF0000000000000 0xFFF0000000000000 = false) ∧
    (∀ a b : F64,
      fGt a b = fLt b a ∧ (fIsNaN a = true ∨ fIsNaN b = true → fLt a b = false) ∧
        (FiniteF64 a → FiniteF64 b → (fLt a b = true ↔ fInt a < fInt b))) ∧
    ∀ x : F64, FiniteF64 x →
      (0 ≤ fInt x → (ffloor x : Int) * 2 ^ 1074 ≤ fInt x ∧ fInt x < ((ffloor x : Int) + 1) * 2 ^ 1074) ∧
        (ftrunc x).natAbs * 2 ^ 1074 ≤ (fInt x).natAbs ∧
        (fInt x).natAbs < ((ftrunc x).natAbs + 1) * 2 ^ 1074 ∧
        (0 ≤ fInt x → 0 ≤ ftrunc x) ∧ (fInt x ≤ 0 → ftrunc x ≤ 0)

/-- Every NaN result is CANON_NAN, and these operations are the ones that give it (00_scope R11, R10):
any NaN operand, opposite infinities added, zero times infinity, zero over zero, infinity over
infinity. Otherwise an infinity or a zero divisor gives an infinity or a zero with the sign of the operands
(60_exceptions R226), and a difference is the sum with the second operand's sign flipped. Which operations
give a NaN, and the signs, are IEEE 754's, which R10 names and does not repeat (PRESUMED, entry 11). -/
def Obligations.NanResultsAreCanonical : Prop :=
  ∀ a b : F64,
    (∀ r ∈ [fadd a b, fsub a b, fmul a b, fdiv a b, fabs a],
        fIsNaN r = true → r = 0x7FF8000000000000) ∧
      (fIsNaN (fadd a b) = true ↔
        fIsNaN a = true ∨ fIsNaN b = true ∨ ∃ n, fVal a = .inf n ∧ fVal b = .inf (!n)) ∧
      (fIsNaN (fmul a b) = true ↔
        fIsNaN a = true ∨ fIsNaN b = true ∨
          (∃ n m, fVal a = .inf n ∧ fVal b = .fin m 0) ∨ ∃ n m, fVal a = .fin n 0 ∧ fVal b = .inf m) ∧
      (fIsNaN (fdiv a b) = true ↔
        fIsNaN a = true ∨ fIsNaN b = true ∨
          (∃ n m, fVal a = .inf n ∧ fVal b = .inf m) ∨ ∃ n m, fVal a = .fin n 0 ∧ fVal b = .fin m 0) ∧
      fsub a b = fadd a (b ^^^ 0x8000000000000000) ∧
      (∀ n, fVal a = .inf n → FiniteF64 b → fadd a b = a ∧ fadd b a = a) ∧
      (∀ n, fVal a = .inf n → fVal b = .inf n → fadd a b = a) ∧
      (∀ n, fVal a = .inf n → fIsNaN b = false → fVal b ≠ .fin (fSign b) 0 →
        fmul a b = fInf (n != fSign b) ∧ fmul b a = fInf (n != fSign b)) ∧
      (∀ n, fVal a = .inf n → FiniteF64 b →
        fdiv a b = fInf (n != fSign b) ∧ fdiv b a = fZero (n != fSign b)) ∧
      ∀ n, FiniteF64 a → fInt a ≠ 0 → fVal b = .fin n 0 → fdiv a b = fInf (fSign a != n)

/-! ## The sample codec (40_codec) -/

/-- 40_codec R100, R101: Decode divides the sign-extended little-endian integer of the bytes by MAXMAG,
once. -/
def Obligations.DecodeDividesTheSignedInteger : Prop :=
  ∀ (w : Nat) (bytes : List Byte), 1 ≤ w → w ≤ 4 → bytes.length = w →
    let u : Nat := (bytes.map BitVec.toNat).foldr (fun b acc => b + 256 * acc) 0
    decodeSample bytes w =
      fdiv (i2f (if u < 2 ^ (8 * w - 1) then (u : Int) else u - 2 ^ (8 * w)))
        (i2f (2 ^ (8 * w - 1) - 1))

/-- The range of Decode (40_codec R102): the zero code gives +0.0 and MAXMAG gives 1.0; opposite codes give
opposite values; every code but the most negative lies in [-1.0, 1.0], and that one lies below -1.0. -/
def Obligations.DecodeRange : Prop :=
  ∀ w : Nat, 1 ≤ w → w ≤ 4 →
    decodeSample (toLE w 0) w = 0 ∧
      decodeSample (toLE w (2 ^ (8 * w - 1) - 1)) w = 0x3FF0000000000000 ∧
      (∀ n : Nat, 0 < n → n < 2 ^ (8 * w - 1) →
        decodeSample (toLE w (2 ^ (8 * w) - n)) w = fneg (decodeSample (toLE w n) w)) ∧
      (∀ n : Nat, n < 2 ^ (8 * w) →
        FiniteF64 (decodeSample (toLE w n) w) ∧ fInt (decodeSample (toLE w n) w) ≤ 2 ^ 1074 ∧
          (fInt (decodeSample (toLE w n) w) < -2 ^ 1074 ↔ n = 2 ^ (8 * w - 1)))

/-- Encode (40_codec R103, R104): w bytes, least significant first, of the two's complement of an integer. In
[-1.0, 1.0] that is the rounded product of the value and MAXMAG, truncated toward zero. It is never beyond MAXMAG in magnitude; values above 1.0, +infinity
among them, give MAXMAG and values below -1.0 give -MAXMAG; a NaN gives 0. A value below 1/MAXMAG in
magnitude gives 0 unless its product with MAXMAG rounds to 1.0, when it gives 1 or -1 (R104 says 0 there
too; the model follows R103, entry 26); below 2^-(8w-1) the product never rounds so. -/
def Obligations.EncodeStaysInRange : Prop :=
  ∀ (w : Nat) (v : F64), 1 ≤ w → w ≤ 4 →
    ((encodeSample v w).length = w ∧
        (((encodeSample v w).map BitVec.toNat).foldr (fun b acc => b + 256 * acc) 0 : Int) =
          encodeInt v w % 2 ^ (8 * w)) ∧
      (FiniteF64 v → fLt 0x3FF0000000000000 v = false → fLt v 0xBFF0000000000000 = false →
        (encodeInt v w).natAbs * 2 ^ 1074 ≤ (fInt (fmul v (i2f (2 ^ (8 * w - 1) - 1)))).natAbs ∧
          (fInt (fmul v (i2f (2 ^ (8 * w - 1) - 1)))).natAbs < ((encodeInt v w).natAbs + 1) * 2 ^ 1074 ∧
          (fSign v = false → 0 ≤ encodeInt v w) ∧ (fSign v = true → encodeInt v w ≤ 0)) ∧
      (encodeInt v w).natAbs ≤ 2 ^ (8 * w - 1) - 1 ∧
      (fLt 0x3FF0000000000000 v = true → encodeInt v w = 2 ^ (8 * w - 1) - 1) ∧
      (fLt v 0xBFF0000000000000 = true → encodeInt v w = -(2 ^ (8 * w - 1) - 1)) ∧
      (fIsNaN v = true → encodeInt v w = 0) ∧
      (FiniteF64 v → (fInt v).natAbs * (2 ^ (8 * w - 1) - 1) < 2 ^ 1074 →
        encodeInt v w =
          if fabs (fmul v (i2f (2 ^ (8 * w - 1) - 1))) = 0x3FF0000000000000 then
            (if fSign v then -1 else 1)
          else 0) ∧
      (FiniteF64 v → (fInt v).natAbs * 2 ^ (8 * w - 1) < 2 ^ 1074 → encodeInt v w = 0)

/-- 40_codec R107: every code of every width but the most negative survives Decode then Encode; the most
negative becomes the most negative plus one. -/
def Obligations.CodesSurviveTheRoundTrip : Prop :=
  ∀ (w : Nat) (bytes : List Byte), 1 ≤ w → w ≤ 4 → bytes.length = w →
    encodeSample (decodeSample bytes w) w =
      if bytes = toLE w (2 ^ (8 * w - 1)) then toLE w (2 ^ (8 * w - 1) + 1) else bytes

/-! ## The easing unit (41_easing) -/

/-- The easing table (41_easing R120, R121): each entry is the rounded cube of the rounded i / (TABLE_SIZE
- 1); it starts at +0.0, ends at 1.0, and never falls. -/
def Obligations.EaseTableRisesFromZeroToOne : Prop :=
  ∀ c : Config, c.Legal →
    (∀ i, easeTable c i =
        fmul
          (fmul (fdiv (i2f i) (i2f (c.tableSize - 1 : Nat))) (fdiv (i2f i) (i2f (c.tableSize - 1 : Nat))))
          (fdiv (i2f i) (i2f (c.tableSize - 1 : Nat)))) ∧
      easeTable c 0 = 0 ∧ easeTable c (c.tableSize - 1) = 0x3FF0000000000000 ∧
      (∀ i < c.tableSize, FiniteF64 (easeTable c i) ∧ 0 ≤ fInt (easeTable c i) ∧
        fInt (easeTable c i) ≤ 2 ^ 1074) ∧
      ∀ i j, i ≤ j → j < c.tableSize → fInt (easeTable c i) ≤ fInt (easeTable c j)

/-- 41_easing R124: the index of Ease is always a table index, and -0.0 gives 0. -/
def Obligations.EaseIndexIsInTheTable : Prop :=
  ∀ (c : Config) (p : F64), c.Legal →
    easeIndex c p < c.tableSize ∧ easeIndex c 0x8000000000000000 = 0

/-- The ends of Ease (41_easing R122, R123, R125): at and below 0, and for a NaN, from + (to - from) * 0,
which is `from` itself when `to - from` and `from` are finite and `from` is not -0.0; from -0.0 it is +0.0
unless `to` lies below 0 (entry 26); at and above 1, from + (to - from). -/
def Obligations.EaseEndpoints : Prop :=
  ∀ (c : Config) (p frm upto : F64), c.Legal →
    (fIsNaN p = true ∨ fLt 0 p = false →
      ease c p frm upto = fadd frm (fmul (fsub upto frm) 0) ∧
        (FiniteF64 frm → FiniteF64 (fsub upto frm) → frm ≠ 0x8000000000000000 →
          ease c p frm upto = frm) ∧
        (FiniteF64 upto →
          ease c p 0x8000000000000000 upto =
            if fLt upto 0 = true then 0x8000000000000000 else 0)) ∧
      (fIsNaN p = false → fLt p 0x3FF0000000000000 = false → ease c p frm upto = fadd frm (fsub upto frm))

/-! ## The crossfade (42_crossfade) -/

/-- How a transition goes (42_crossfade R142 to R145, R147): from TCUR = c < L = TLEN it stays ACTIVE with
the eased volume of (c + k) / L after k < L - c steps, has exactly `to` and is INACTIVE after L - c, and
stays so; from c ≥ L one step ends it, unless the increment wraps: then it stays ACTIVE. For L = 0 and
c ≤ -2 the first of these is R142 and R145 (1) against R145 (3), which ends at once, and at the wrap it is
R147 against R145 (2): the model's choice (DEDUCED, entry 27). -/
def Obligations.CrossfadeConverges : Prop :=
  ∀ (cfg : Config) (frm upto : F64) (r : Work), 0 ≤ r.tlen.toInt →
    (r.tcur.toInt < r.tlen.toInt →
      (∀ k : Nat, 0 < k → (k : Int) < r.tlen.toInt - r.tcur.toInt →
        (crossfade cfg frm upto)^[k] r =
          { vol := ease cfg (fdiv (i2f (r.tcur.toInt + k)) (i2f r.tlen.toInt)) frm upto
            tlen := r.tlen, tcur := r.tcur + BitVec.ofNat 64 k }) ∧
        ∀ k : Nat, r.tlen.toInt - r.tcur.toInt ≤ k →
          (crossfade cfg frm upto)^[k] r =
            { vol := upto, tlen := 0xFFFFFFFFFFFFFFFF, tcur := r.tlen }) ∧
      (r.tlen.toInt ≤ r.tcur.toInt → r.tcur ≠ 0x7FFFFFFFFFFFFFFF →
        crossfade cfg frm upto r = { vol := upto, tlen := 0xFFFFFFFFFFFFFFFF, tcur := r.tcur + 1 }) ∧
      (r.tcur = 0x7FFFFFFFFFFFFFFF →
        crossfade cfg frm upto r =
          { vol := ease cfg (fdiv (i2f (-2 ^ 63)) (i2f r.tlen.toInt)) frm upto
            tlen := r.tlen, tcur := 0x8000000000000000 })

/-! ## The mixing function (43_mixer section 1) -/

/-- Mix is commutative, bit for bit (43_mixer R161). -/
def Obligations.MixCommutes : Prop := ∀ a b : F64, mixPair a b = mixPair b a

/-- Mixing with silence (43_mixer R161): Mix(+0.0, s) is s for every finite s but -0.0, which gives +0.0,
and CANON_NAN for an infinity. -/
def Obligations.MixWithSilence : Prop :=
  ∀ x : F64,
    (FiniteF64 x → x ≠ 0x8000000000000000 → mixPair 0 x = x) ∧
      mixPair 0 0x8000000000000000 = 0 ∧
      (fVal x = .inf true ∨ fVal x = .inf false → mixPair 0 x = 0x7FF8000000000000)

/-- 43_mixer R162: the fold is the ascending left fold from +0.0, and its order matters. -/
def Obligations.FoldIsAscendingFromZero : Prop :=
  mixFold [] = 0 ∧ (∀ (xs : List F64) (x : F64), mixFold (xs ++ [x]) = mixPair (mixFold xs) x) ∧
    mixFold [0x3FE0000000000000, 0x3FD0000000000000, 0xBFE8000000000000] = 0xBFA8600000000000 ∧
    mixFold [0xBFE8000000000000, 0x3FD0000000000000, 0x3FE0000000000000] = 0x3FB3200000000000

/-! ## The run (43_mixer section 3) -/

/-- A sample step (43_mixer R173, R174). At the start of a frame every ACTIVE record below N takes its
crossfade step; then every source is read at POS, scaled by its volume and folded in ascending order, and
the encoded accumulator is stored at OUT_BASE + POS; POS becomes POS + bs. Taken by single bytes, the
first computes the sample and holds what it does not store, and the later ones store what is held: the
sources are read once (20_memory R69, R74). PHASE moves within the same step: the model's inference
(DEDUCED, entry 8), as are the single bytes (entry 7). What a run stores after a broken duty is in
BrokenDutyFreesTheOutputWindow. -/
def Obligations.SampleStepMixesOneSample : Prop :=
  ∀ (s : State) (w : List Work) (acc : F64) (bytes : List Byte), s.Inv → s.phase = .sample →
    s.tainted = false → s.pos.toNat + s.bs ≤ s.length.toNat →
    (w = if s.pos.toNat % (s.bs * s.channels.toNat) = 0 then
          s.work.mapIdx fun i r =>
            if i < s.nbuf.toNat ∧ 0 ≤ r.tlen.toInt then
              xfStep s.cfg (s.slot i).tfrom (s.slot i).tto r
            else r
        else s.work) →
    (acc = (List.range s.nbuf.toNat).foldl
        (fun acc i =>
          mixPair acc
            (fmul
              (decodeSample
                (Memory.readBytes s.mem ((s.slot i).bufBase.toNat + s.pos.toNat) s.bs) s.bs)
              (w.getD i Work.unloaded).vol)) 0) →
    (bytes = if s.beat = 0 then encodeSample acc s.bs else s.held) →
    s.runStep =
        .next
          { s with
            work := w
            mem := Memory.writeBytes s.mem (s.outBase.toNat + s.pos.toNat + s.beat) bytes
            pos := BitVec.ofNat 32 (s.pos.toNat + s.bs)
            beat := 0, held := []
            phase :=
              if s.pos.toNat + s.bs + s.bs ≤ s.length.toNat then .sample
              else if s.pos.toNat + s.bs < s.length.toNat then .tail else .finish } ∧
      (s.beat + 1 = s.bs → s.runByte = s.runStep) ∧
      (s.beat + 1 < s.bs →
        s.runByte =
          .next
            { s with
              mem := Memory.writeBytes s.mem (s.outBase.toNat + s.pos.toNat + s.beat) (bytes.take 1)
              beat := s.beat + 1, held := bytes.drop 1 })

/-- A tail write (43_mixer R176) stores 0x00 at the next output byte, and after the last one the run is at its
finish. That PHASE moves within the write, to TAIL (also from SAMPLE when LENGTH is below bs) or to FINISH, is
the model's inference (DEDUCED, entry 8), and the count `beat` is the model's (entry 7). What a run stores
after a broken duty is in BrokenDutyFreesTheOutputWindow. -/
def Obligations.TailWritesZeros : Prop :=
  ∀ s : State, s.Inv → s.phase ≠ .idle → s.tainted = false → s.length.toNat < s.pos.toNat + s.bs →
    s.pos.toNat + s.beat < s.length.toNat →
    s.runStep =
      .next
        { s with
          mem := Memory.write s.mem (s.outBase.toNat + s.pos.toNat + s.beat) 0x00
          beat := s.beat + 1
          phase := if s.pos.toNat + s.beat + 1 < s.length.toNat then .tail else .finish }

/-- The finish (43_mixer R178) writes WORK back to VOLUME, TLEN and TCUR of the slots below N, and only there,
in one step with PHASE <- IDLE and DONE <- 1. It also clears the model's own record of the run: the bytes
written and held (`beat`, `held`, entry 7) and the mark of a broken duty (`tainted`, entry 5). -/
def Obligations.FinishWritesBack : Prop :=
  ∀ s : State, s.Inv → s.phase ≠ .idle → s.length.toNat < s.pos.toNat + s.bs →
    s.pos.toNat + s.beat = s.length.toNat →
    s.runStep =
      .next
        { s with
          slots :=
            s.slots.mapIdx fun i x =>
              if i < s.nbuf.toNat then
                { x with
                  volume := (s.workAt i).vol, tlen := (s.workAt i).tlen, tcur := (s.workAt i).tcur }
              else x
          phase := .idle, done := true, beat := 0, held := [], tainted := false }

/-- The frame of the run's steps, whole and by single bytes (20_memory R62, R69, 43_mixer R175): they
change no register but POS, DONE and at the finish the slots, and no byte of DMEM outside those stored at
OUT_BASE + POS + beat: the sample or what is held of it, one tail byte, or none. `beat`, `held` and single
bytes are the model's (entry 7), as are `draws` and `tainted` (entry 5). -/
def Obligations.RunStepsStoreOnlyTheirBytes : Prop :=
  ∀ s t : State, (s.runStep = .next t ∨ s.runByte = .next t) →
    t =
        { s with
          mem := t.mem, work := t.work, pos := t.pos, phase := t.phase, beat := t.beat, held := t.held
          draws := t.draws, slots := t.slots, done := t.done, tainted := t.tainted } ∧
      (s.nextPhase ≠ .finish → t.slots = s.slots ∧ t.done = s.done ∧ t.tainted = s.tainted) ∧
      ∀ a : Nat,
        a < s.outAddr ∨
            s.outAddr +
                (match s.nextPhase with
                | .sample => if s.beat = 0 then s.bs else s.held.length
                | .tail => 1
                | .finish => 0
                | .idle => 0) ≤ a →
          Memory.read t.mem a = Memory.read s.mem a

/-- A whole MIX (43_mixer R165, R179): once accepted and left alone, the run takes exactly LENGTH div bs
sample steps, LENGTH mod bs tail writes and one finish (70 R276), and ends in `mixWhole` of the state that
issued it. `mixWhole` reads only that state: each output sample from the inputs and from the volumes that
the frames so far give, zeros in the tail, and the records after all frames written back. The duty it
records is the model's own (entry 6), and that the moves of PHASE take no step is its inference (entry 8). -/
def Obligations.RunRefinesWholeMix : Prop :=
  ∀ s : State, s.Inv → s.phase = .idle → s.inputs = [] → s.AcceptsMix →
    ∃ t, exec .mix s = .next t ∧ Host.Core.run Sys2Proof.core s.runLength t = .next s.mixWhole

/-- Any interleaving (20_memory R74, 70 R262, R267): while the host keeps its duty, however register
accesses, DMEM reads, waits, run steps and single bytes follow each other after an accepted MIX, DMEM is
always what it was before with a prefix of the run's output stored: POS + beat bytes while the run is in
progress, all of them after. A reset at that point leaves DMEM so. Events, and single bytes counted by
`beat`, are the model's (entries 2, 7). -/
def Obligations.OutputIsAlwaysAPrefix : Prop :=
  ∀ (s t u : State) (es : List Event) (k : Nat),
    s.Inv → s.phase = .idle → s.AcceptsMix → (∀ e ∈ es, e.quiet = true) →
    exec .mix { s with inputs := es } = .next t → Host.Core.run Sys2Proof.core k t = .next u →
      u.mem =
          Memory.writeBytes s.mem s.outBase.toNat
            (s.output.take (if u.phase = .idle then s.length.toNat else u.pos.toNat + u.beat)) ∧
        u.resetInput.mem = u.mem

/-- Nothing stops (20_memory R67, 60_exceptions R225, 70_reset_and_hazards R277): from a state that meets the
invariant every step goes on, whatever the host does, and while a run is in progress each of the
sequencer's turns finishes it or writes more of its output. That a host access past DMEM goes on too is
the model's choice (entry 10); single bytes and `beat` are the model's too (entry 7). -/
def Obligations.RunsNeverFault : Prop :=
  ∀ s : State, s.Inv →
    (∃ t, step s = .next t) ∧ (∀ e, ∃ t, s.perform e = .next t) ∧
      (s.phase ≠ .idle → ∀ t, s.runStep = .next t ∨ s.runByte = .next t →
        (t.phase = .idle ∧ t.done = true) ∨
          (t.phase ≠ .idle ∧ s.pos.toNat + s.beat < t.pos.toNat + t.beat ∧
            t.pos.toNat + t.beat ≤ s.length.toNat))

/-- POS (70 R278): while a run goes on, it stays or grows by one sample, and never passes REQ. -/
def Obligations.PosNeverDecreases : Prop :=
  ∀ s t : State, s.Inv → s.phase ≠ .idle → step s = .next t → t.phase ≠ .idle →
    (t.pos = s.pos ∨ t.pos.toNat = s.pos.toNat + s.bs) ∧ t.pos.toNat ≤ s.req

/-- 43_mixer R180: with no source, or with every source at volume +0.0 and no ACTIVE transition, the whole
output window is 0x00. -/
def Obligations.SilenceGivesZeros : Prop :=
  ∀ s : State, s.Inv → s.phase = .idle → s.inputs = [] → s.AcceptsMix →
    (∀ i < s.nbuf.toNat, (s.slot i).volume = 0 ∧ (s.slot i).tlen.toInt < 0) →
    ∃ t u, exec .mix s = .next t ∧ Host.Core.run Sys2Proof.core s.runLength t = .next u ∧
      u.phase = .idle ∧ u.done = true ∧
      ∀ k < s.length.toNat, Memory.read u.mem (s.outBase.toNat + k) = 0x00

/-- 43_mixer R181: one source at VOLUME 1.0 with an INACTIVE transition comes out code for code, but for
the most negative code, which becomes the most negative plus one. -/
def Obligations.SingleSourcePassesThrough : Prop :=
  ∀ s : State, s.Inv → s.phase = .idle → s.inputs = [] → s.AcceptsMix → s.nbuf = 1 →
    (s.slot 0).volume = 0x3FF0000000000000 → (s.slot 0).tlen.toInt < 0 →
    ∃ t u, exec .mix s = .next t ∧ Host.Core.run Sys2Proof.core s.runLength t = .next u ∧
      u.phase = .idle ∧ u.done = true ∧
      ∀ j < s.len / s.bs, ∀ code,
        code = Memory.readBytes s.mem ((s.slot 0).bufBase.toNat + j * s.bs) s.bs →
        Memory.readBytes u.mem (s.outBase.toNat + j * s.bs) s.bs =
          if code = toLE s.bs (2 ^ (8 * s.bs - 1)) then toLE s.bs (2 ^ (8 * s.bs - 1) + 1) else code

/-! ## Reset, and what no step does -/

/-- 10_state R54, R55: the value of every register and field after reset, for every choice of the
parameters. What DMEM lists and WORK holds is the model's choice (entries 3, 4) and is not stated. -/
def Obligations.ResetValues : Prop :=
  ∀ c : Config, c.Legal →
    (State.powerOn c).statusWord = 0 ∧ (State.powerOn c).irqEn = false ∧
      (State.powerOn c).irq = false ∧ (State.powerOn c).phase = .idle ∧
      (∀ off ∈ [0x020, 0x028, 0x030, 0x038, 0x040, 0x048, 0x050, 0x058, 0x060, 0x068, 0x070],
        ((State.powerOn c).readReg (portOf off)).regData = 0) ∧
      (State.powerOn c).slots.length = c.maxSources ∧
      (∀ i < c.maxSources,
        (State.powerOn c).slot i =
          { volume := 0, tlen := 0xFFFFFFFFFFFFFFFF, tcur := 0, tfrom := 0, tto := 0
            bufBase := 0, bufLen := 0 }) ∧
      State.reset = State.powerOn
        { maxSources := 16, memSize := 2 ^ 32, support24 := true, tableSize := 4000 }

/-- 70_reset_and_hazards R260, R263: the reset input, with or without a register access in the same step,
puts every register, field and PHASE at its reset value whatever they were, and keeps DMEM and the
parameters, and so the ROM. WORK is left out: R54 leaves it unspecified (entry 4). That reset ends the
host's duties (entry 6), and that a lost read leaves the value last read (entry 16), are the model's. -/
def Obligations.ResetInputResetsTheBlock : Prop :=
  ∀ (s : State) (lost : Option RegAccess) (rest : List Event), s.inputs = .reset lost :: rest →
    ∃ t, step s = .next t ∧
      t =
        { State.powerOn s.cfg with
          mem := s.mem, inputs := rest, regData := s.regData, memData := s.memData
          draws := s.draws, work := t.work }

/-- 70_reset_and_hazards R261: the value WORK holds is never observable. Two machines that differ only in
WORK, and only at places no run in progress uses, differ only so after every step. -/
def Obligations.UnloadedWorkIsUnobservable : Prop :=
  ∀ (s t : State) (w : List Work), w.length = s.work.length →
    (s.phase ≠ .idle → ∀ i < s.nbuf.toNat, w[i]? = s.work[i]?) → step s = .next t →
      ∃ w', step { s with work := w } = .next { t with work := w' } ∧ w'.length = t.work.length ∧
        (t.phase ≠ .idle → ∀ i < t.nbuf.toNat, w'[i]? = t.work[i]?)

/-- The crossfade never reads DMEM (70_reset_and_hazards R266): whatever DMEM holds, whatever bytes of a
sample are held, and whether or not the host has broken its duty, a run step or a single byte of one has
the same effect on everything but DMEM, the bytes held and the model's own record of the breach
(entry 5). -/
def Obligations.RunStateIgnoresDmem : Prop :=
  ∀ (s t : State) (m : Memory) (h : List Byte) (b : Bool) (d : Nat), h.length = s.held.length →
    (s.runStep = .next t →
      ∃ t', { s with mem := m, held := h, tainted := b, draws := d }.runStep = .next t' ∧
        t' = { t with mem := t'.mem, held := t'.held, tainted := t'.tainted, draws := t'.draws } ∧
        t'.held.length = t.held.length) ∧
      (s.runByte = .next t →
        ∃ t', { s with mem := m, held := h, tainted := b, draws := d }.runByte = .next t' ∧
          t' = { t with mem := t'.mem, held := t'.held, tainted := t'.tainted, draws := t'.draws } ∧
          t'.held.length = t.held.length)

/-- The machine right after reset meets the invariant. -/
def Obligations.ResetMeetsTheInvariant : Prop := State.reset.Inv

/-- Every step keeps the invariant: DMEM canonical and inside its size, STATUS consistent with
60_exceptions R222 and R230, a run in progress one that validation accepted (20_memory R67), PHASE in
agreement with POS and the bytes held (43_mixer R172, R176, 20_memory R74). No step changes the parameters,
and so none changes the easing ROM (10_state R50). Its parts on `beat`, `held`, `duties`, `tainted` and the
moves of PHASE are the model's own (entries 5 to 8). -/
def Obligations.EveryStepKeepsTheInvariant : Prop :=
  ∀ s t : State, s.Inv → step s = .next t →
    t.Inv ∧ t.cfg = s.cfg ∧ ∀ i, easeTable t.cfg i = easeTable s.cfg i

/-! ## The register port (10_state) -/

/-- 10_state R39: the 32-bit registers drop the written bits 63:32 and read 0 there; POS ignores the
write. Nothing else changes. -/
def Obligations.ThirtyTwoBitRegistersDropUpperBits : Prop :=
  ∀ (s : State) (v : Word),
    (s.phase = .idle →
      s.writeReg (portOf 0x020) v = .next { s with length := v.setWidth 32 } ∧
        s.writeReg (portOf 0x028) v = .next { s with bitdepth := v.setWidth 32 } ∧
        s.writeReg (portOf 0x030) v = .next { s with channels := v.setWidth 32 } ∧
        s.writeReg (portOf 0x038) v = .next { s with nbuf := v.setWidth 32 } ∧
        s.writeReg (portOf 0x040) v = .next { s with nrec := v.setWidth 32 } ∧
        ∀ off ∈ [0x020, 0x028, 0x030, 0x038, 0x040],
          ∃ t, s.writeReg (portOf off) v = .next t ∧
            (t.readReg (portOf off)).regData = v &&& 0x00000000FFFFFFFF) ∧
      s.writeReg (portOf 0x070) v = .next s ∧
      (s.readReg (portOf 0x070)).regData = BitVec.ofNat 64 s.pos.toNat

/-- 10_state R34: OPA, OPB and OPC hold any pattern, and no command changes them. -/
def Obligations.OperandRegistersAreTheHosts : Prop :=
  (∀ (s : State) (v : Word), s.phase = .idle →
      s.writeReg (portOf 0x050) v = .next { s with opa := v } ∧
        s.writeReg (portOf 0x058) v = .next { s with opb := v } ∧
        s.writeReg (portOf 0x060) v = .next { s with opc := v } ∧
        s.writeReg (portOf 0x048) v = .next { s with outBase := v }) ∧
    (∀ s : State, (s.readReg (portOf 0x050)).regData = s.opa ∧ (s.readReg (portOf 0x058)).regData = s.opb ∧
      (s.readReg (portOf 0x060)).regData = s.opc ∧ (s.readReg (portOf 0x048)).regData = s.outBase) ∧
    ∀ (s t : State) (i : Instr), exec i s = .next t →
      t.opa = s.opa ∧ t.opb = s.opb ∧ t.opc = s.opc

/-- 10_state R40, R49: the seven fields of every slot hold the written pattern unchanged and read it back,
each at its own offset, and no other field or slot changes. -/
def Obligations.SlotFieldsKeepTheirPatterns : Prop :=
  ∀ (s : State) (i : Nat) (v : Word), s.ShapeOk → s.phase = .idle → i < s.cfg.maxSources →
    s.writeReg (portOf (0x100 + 0x40 * i + 0x00)) v =
        .next { s with slots := s.slots.set i { s.slot i with volume := v } } ∧
      s.writeReg (portOf (0x100 + 0x40 * i + 0x08)) v =
        .next { s with slots := s.slots.set i { s.slot i with tlen := v } } ∧
      s.writeReg (portOf (0x100 + 0x40 * i + 0x10)) v =
        .next { s with slots := s.slots.set i { s.slot i with tcur := v } } ∧
      s.writeReg (portOf (0x100 + 0x40 * i + 0x18)) v =
        .next { s with slots := s.slots.set i { s.slot i with tfrom := v } } ∧
      s.writeReg (portOf (0x100 + 0x40 * i + 0x20)) v =
        .next { s with slots := s.slots.set i { s.slot i with tto := v } } ∧
      s.writeReg (portOf (0x100 + 0x40 * i + 0x28)) v =
        .next { s with slots := s.slots.set i { s.slot i with bufBase := v } } ∧
      s.writeReg (portOf (0x100 + 0x40 * i + 0x30)) v =
        .next { s with slots := s.slots.set i { s.slot i with bufLen := v } } ∧
      ∀ f < 7, ∀ t, s.writeReg (portOf (0x100 + 0x40 * i + 8 * f)) v = .next t →
        (t.readReg (portOf (0x100 + 0x40 * i + 8 * f))).regData = v

/-- 10_state R21: offsets that no rule maps read 0 and ignore writes: 0x080 to 0x0F8, word 0x38 of every
slot, and every offset of a slot index at or above MAX_SOURCES. -/
def Obligations.UnmappedOffsetsReadZero : Prop :=
  ∀ (s : State) (off : Nat) (v : Word), off < 0x1000 → off % 8 = 0 →
    ((0x080 ≤ off ∧ off ≤ 0x0F8) ∨ (0x100 ≤ off ∧ (off - 0x100) % 0x40 = 0x38) ∨
      (0x100 ≤ off ∧ s.cfg.maxSources ≤ (off - 0x100) / 0x40)) →
    s.readReg (portOf off) = { s with regData := 0 } ∧ s.writeReg (portOf off) v = .next s

/-- 10_state R38, R48: while BUSY a write to any register but STATUS, IRQ_EN and CMD is ignored, a CMD write
leaves them all too, and reads are not blocked; so no step of a run in progress changes a register that
the run reads, and a read, BUSY or not, returns what the register holds. -/
def Obligations.BusyProtectsTheRegistersOfARun : Prop :=
  (∀ s : State, s.phase ≠ .idle →
      (∀ word v, word ≠ portOf 0x008 → word ≠ portOf 0x010 → word ≠ portOf 0x018 →
          s.writeReg word v = .next s) ∧
        (∀ word, s.portAccess (.read word) = .next (s.readReg word)) ∧
        ∀ t, step s = .next t → t.phase ≠ .idle →
          t.length = s.length ∧ t.bitdepth = s.bitdepth ∧ t.channels = s.channels ∧ t.nbuf = s.nbuf ∧
            t.nrec = s.nrec ∧ t.outBase = s.outBase ∧ t.opa = s.opa ∧ t.opb = s.opb ∧ t.opc = s.opc ∧
            t.slots = s.slots) ∧
    (∀ s : State,
        (s.readReg (portOf 0x020)).regData = BitVec.ofNat 64 s.length.toNat ∧
          (s.readReg (portOf 0x028)).regData = BitVec.ofNat 64 s.bitdepth.toNat ∧
          (s.readReg (portOf 0x030)).regData = BitVec.ofNat 64 s.channels.toNat ∧
          (s.readReg (portOf 0x038)).regData = BitVec.ofNat 64 s.nbuf.toNat ∧
          (s.readReg (portOf 0x040)).regData = BitVec.ofNat 64 s.nrec.toNat ∧
          (s.readReg (portOf 0x048)).regData = s.outBase) ∧
    ∀ (s : State) (i : Nat), s.cfg.Legal → i < s.cfg.maxSources →
      (s.readReg (portOf (0x100 + 0x40 * i + 0x00))).regData = (s.slot i).volume ∧
        (s.readReg (portOf (0x100 + 0x40 * i + 0x08))).regData = (s.slot i).tlen ∧
        (s.readReg (portOf (0x100 + 0x40 * i + 0x10))).regData = (s.slot i).tcur ∧
        (s.readReg (portOf (0x100 + 0x40 * i + 0x18))).regData = (s.slot i).tfrom ∧
        (s.readReg (portOf (0x100 + 0x40 * i + 0x20))).regData = (s.slot i).tto ∧
        (s.readReg (portOf (0x100 + 0x40 * i + 0x28))).regData = (s.slot i).bufBase ∧
        (s.readReg (portOf (0x100 + 0x40 * i + 0x30))).regData = (s.slot i).bufLen

/-- 10_state R26: a write to STATUS, BUSY or not, clears DONE, ERR and DROPPED where the bit is 1, sets
nothing, and changes nothing else. -/
def Obligations.StatusWritesOnlyClear : Prop :=
  ∀ (s : State) (v : Word),
    s.writeReg (portOf 0x010) v =
      .next
        { s with
          done := if v.toNat / 2 % 2 = 1 then false else s.done
          err := if v.toNat / 4 % 2 = 1 then false else s.err
          dropped := if v.toNat / 8 % 2 = 1 then false else s.dropped }

/-- STATUS as it reads (10_state R25, R51): each field in its bits and every other bit 0. -/
def Obligations.StatusReadsItsFields : Prop :=
  ∀ s : State,
    (s.readReg (portOf 0x010)).regData.toNat =
      (if s.phase = .idle then 0 else 1) + (if s.done then 2 else 0) + (if s.err then 4 else 0) +
        (if s.dropped then 8 else 0) + 2 ^ 8 * s.errcode.toNat + 2 ^ 16 * s.errslot.toNat

/-- The read-only registers and CMD (10_state R22 to R24, R35, R37): ID and PARAM read their constants, RES
reads what it holds, all three ignore writes, and CMD reads 0. -/
def Obligations.IdentificationRegisters : Prop :=
  ∀ (s : State) (v : Word),
    (s.readReg (portOf 0x000)).regData = 0x0000000152424D58 ∧
      (s.readReg (portOf 0x008)).regData = 0 ∧
      s.writeReg (portOf 0x000) v = .next s ∧ s.writeReg (portOf 0x078) v = .next s ∧
      (s.readReg (portOf 0x068)).regData = s.res ∧ s.writeReg (portOf 0x068) v = .next s ∧
      (s.cfg.Legal →
        (s.readReg (portOf 0x078)).regData.toNat =
          s.cfg.maxSources + (if s.cfg.support24 then 2 ^ 8 else 0) + 2 ^ 16 * s.cfg.tableSize) ∧
      (s.cfg = Config.default → (s.readReg (portOf 0x078)).regData = 0x000000000FA00110)

/-- The interrupt (10_state R27, 60_exceptions R240, R241): IRQ_EN.E gates DONE or ERR, E is the only bit
of IRQ_EN, DROPPED does not drive it, and with E = 1 every accepted command but a MIX that starts a run
raises it. -/
def Obligations.InterruptFollowsDoneAndErr : Prop :=
  (∀ s : State, s.irq = true ↔ s.irqEn = true ∧ (s.done = true ∨ s.err = true)) ∧
    (∀ s : State, ({ s with dropped := !s.dropped } : State).irq = s.irq) ∧
    (∀ (s : State) (v : Word),
      s.writeReg (portOf 0x018) v = .next { s with irqEn := decide (v.toNat % 2 = 1) } ∧
        (s.readReg (portOf 0x018)).regData = if s.irqEn then 1 else 0) ∧
    ∀ (s t : State) (v : Word), s.phase = .idle → s.irqEn = true → s.writeCmd v = .next t →
      t.irq = true ∨ (v = 0x01 ∧ t.phase = .sample)

/-- Register reads have no effect on the block (44_control R206): a read changes only what the model records
of the host, the value returned and the duties. A read of STATUS that returns BUSY = 0 ends every duty
(70_reset_and_hazards R266), and no other read does; a wait reads STATUS (30_encoding R90), and so ends
them when idle and keeps them while BUSY. That record is the model's own (entries 6, 9, 15). -/
def Obligations.RegisterReadsHaveNoEffect : Prop :=
  ∀ s : State,
    (∀ word : BitVec 9,
        s.readReg word =
          { s with
            regData := (s.readReg word).regData
            duties := if s.phase = .idle ∧ word = portOf 0x010 then [] else s.duties }) ∧
      (s.phase = .idle → s.perform .wait = .next { s with regData := s.statusWord, duties := [] }) ∧
      ∀ t, s.phase ≠ .idle → s.perform .wait = .next t → t.duties = s.duties

/-! ## The host and DMEM (20_memory, 70_reset_and_hazards) -/

/-- The host's accesses to DMEM (30_encoding R90, 70 R266, R267): a write that breaks no duty stores its bytes
and changes nothing else; a read returns the bytes and changes nothing of the block. Past DMEM, written
bytes go nowhere and a byte read is a free value (the model's choice, entry 10); an access of several
bytes is one step (the model's choice, entry 28). -/
def Obligations.HostAccessesToDmem : Prop :=
  ∀ (s : State) (a : Word) (bytes : List Byte) (n : Nat),
    (Memory.wf s.mem = true → a.toNat + bytes.length ≤ s.cfg.memSize →
      (∀ d ∈ s.duties, ∀ x, a.toNat ≤ x → x < a.toNat + bytes.length →
        d.out.has x = false ∧ ∀ v ∈ d.ins, v.has x = false) →
      ∃ t, s.perform (.memWrite a bytes) = .next t ∧ t = { s with mem := t.mem } ∧
        ∀ x, Memory.read t.mem x =
          if a.toNat ≤ x then bytes.getD (x - a.toNat) (Memory.read s.mem x) else Memory.read s.mem x) ∧
      (s.cfg.memSize < a.toNat + bytes.length →
        s.perform (.memWrite a bytes) =
          s.perform (.memWrite a (bytes.take (s.cfg.memSize - a.toNat)))) ∧
      ∃ t, s.perform (.memRead a n) = .next t ∧
        t = { s with memData := t.memData, draws := t.draws } ∧ t.memData.length = n ∧
        (a.toNat + n ≤ s.cfg.memSize → t.draws = s.draws) ∧
        (∀ k < n, a.toNat + k < s.cfg.memSize → t.memData[k]? = some (Memory.read s.mem (a.toNat + k))) ∧
        ∀ k < n, s.cfg.memSize ≤ a.toNat + k →
          ∃ j, s.draws ≤ j ∧ j < t.draws ∧ t.memData[k]? = some (Config.freeByte j)

/-- A broken duty (70_reset_and_hazards R266). A host write inside DMEM, whatever the duties, gives a next
state in which nothing but DMEM and the model's own record has changed: every byte of the output window of
a duty it breaks is a free value, and every other byte is the host's or as before; a run in progress whose
duty it breaks is marked, and no other. With one duty the free values are spelled out. A run so marked
stores a free value at each byte it writes (its other bytes and its registers are in
RunStepsStoreOnlyTheirBytes and RunStateIgnoresDmem). The times at which the bytes change are the model's
choice (entry 5), and the write of several bytes is one step (entry 28). -/
def Obligations.BrokenDutyFreesTheOutputWindow : Prop :=
  (∀ (s : State) (a : Word) (bytes : List Byte),
      Memory.wf s.mem = true → a.toNat + bytes.length ≤ s.cfg.memSize →
      ∃ t, s.perform (.memWrite a bytes) = .next t ∧
        t = { s with mem := t.mem, draws := t.draws, tainted := t.tainted } ∧
        (t.tainted = true ↔
          s.tainted = true ∨
            (s.phase ≠ .idle ∧ ∃ d ∈ s.duties.head?, d.TouchedBy a.toNat bytes.length)) ∧
        (∀ x, (∃ d ∈ s.duties, d.TouchedBy a.toNat bytes.length ∧ d.out.has x = true) →
          ∃ n, s.draws ≤ n ∧ n < t.draws ∧ Memory.read t.mem x = Config.freeByte n) ∧
        (∀ x, (∀ d ∈ s.duties, d.TouchedBy a.toNat bytes.length → d.out.has x = false) →
          Memory.read t.mem x =
            if a.toNat ≤ x then bytes.getD (x - a.toNat) (Memory.read s.mem x)
            else Memory.read s.mem x) ∧
        ∀ d, s.duties = [d] → d.TouchedBy a.toNat bytes.length →
          ∀ k < d.out.size, Memory.read t.mem (d.out.base + k) = Config.freeByte (s.draws + k)) ∧
    ∀ s t : State, Memory.wf s.mem = true → s.tainted = true →
      (s.runStep = .next t →
          ∀ k < (match s.nextPhase with
              | .sample => if s.beat = 0 then s.bs else s.held.length
              | .tail => 1
              | .finish => 0
              | .idle => 0),
            Memory.read t.mem (s.outAddr + k) = Config.freeByte (s.draws + k)) ∧
        (s.runByte = .next t →
          ∀ k < (match s.nextPhase with
              | .sample =>
                if s.beat + 1 < s.bs then min 1 (if s.beat = 0 then s.bs else s.held.length)
                else if s.beat = 0 then s.bs else s.held.length
              | .tail => 1
              | .finish => 0
              | .idle => 0),
            Memory.read t.mem (s.outAddr + k) = Config.freeByte (s.draws + k))
end

