-- ==== Sys2Proof/Laws/Float.lean ====
section
/-! SUPPORT. The small laws of the binary64 operations: the values of the constants, the integer rounding,
and the operations on finite operands. -/

namespace Sys2Proof.Machine

/-- A fraction is a 52-bit number. -/
theorem fFrac_lt (x : F64) : fFrac x < 2 ^ 52 := (x.extractLsb' 0 52).isLt

/-- A biased exponent is an 11-bit number. -/
theorem fExp_lt (x : F64) : fExp x < 2048 := (x.extractLsb' 52 11).isLt

/-- A finite pattern has its signed units as its value. -/
theorem fVal_finite {x : F64} (h : fExp x ≠ 2047) : fVal x = .fin (fSign x) (fUnits x) := by
  simp [fVal, h]

/-- A pattern is a NaN exactly when its exponent is all ones and its fraction is not 0. -/
theorem fIsNaN_iff (x : F64) : fIsNaN x = true ↔ fExp x = 2047 ∧ fFrac x ≠ 0 := by
  unfold fIsNaN fVal
  by_cases h : fExp x = 2047 <;> by_cases h' : fFrac x = 0 <;> simp [h, h']

@[simp] theorem fVal_canonNaN : fVal canonNaN = .nan := by decide +kernel

@[simp] theorem fVal_fZero (neg : Bool) : fVal (fZero neg) = .fin neg 0 := by
  cases neg <;> decide +kernel

@[simp] theorem fVal_fInf (neg : Bool) : fVal (fInf neg) = .inf neg := by
  cases neg <;> decide +kernel

@[simp] theorem fVal_fOne : fVal fOne = .fin false fOneUnits := by decide +kernel

@[simp] theorem fVal_fMinusOne : fVal fMinusOne = .fin true fOneUnits := by decide +kernel

/-- A whole number rounds to itself. -/
theorem roundHalfEven_one (n : Nat) : roundHalfEven n 1 = n := by simp [roundHalfEven, Nat.mod_one]

/-- The rounded whole number is within half of n/d. -/
theorem roundHalfEven_near {n d : Nat} (hd : 0 < d) :
    2 * (roundHalfEven n d * d) ≤ 2 * n + d ∧ 2 * n ≤ 2 * (roundHalfEven n d * d) + d := by
  have hm := Nat.div_add_mod n d
  have hl := Nat.mod_lt n hd
  have e : n / d * d = d * (n / d) := Nat.mul_comm _ _
  unfold roundHalfEven
  split_ifs with h1 h2
  · constructor <;> omega
  · rw [Nat.add_mul, Nat.one_mul]; constructor <;> omega
  · have h3 : n / d % 2 = 0 ∨ n / d % 2 = 1 := by omega
    rcases h3 with h3 | h3 <;> rw [h3, Nat.add_mul] <;> constructor <;> omega

/-- Where n/d lies in the middle, the rounded number is even (00_scope R10, ties to even). -/
theorem roundHalfEven_tie {n d : Nat} (h : 2 * (n % d) = d) : roundHalfEven n d % 2 = 0 := by
  unfold roundHalfEven
  rw [if_neg (by omega), if_neg (by omega)]
  omega

/-- A sum of finite values (00_scope R10). -/
theorem fadd_finite {a b : F64} (ha : fExp a ≠ 2047) (hb : fExp b ≠ 2047) :
    fadd a b = if fInt a + fInt b = 0 then fZero (fSign a && fSign b)
      else fRound (fInt a + fInt b < 0) (fInt a + fInt b).natAbs 1 := by
  simp only [fadd, fVal_finite ha, fVal_finite hb, fInt]
  rfl

/-- A product of finite values (00_scope R10). -/
theorem fmul_finite {a b : F64} (ha : fExp a ≠ 2047) (hb : fExp b ≠ 2047) :
    fmul a b = fRound (fSign a != fSign b) (fUnits a * fUnits b) fOneUnits := by
  simp only [fmul, fVal_finite ha, fVal_finite hb]

/-- A quotient of finite values by one that is not zero (00_scope R10). -/
theorem fdiv_finite {a b : F64} (ha : fExp a ≠ 2047) (hb : fExp b ≠ 2047) (h0 : fUnits b ≠ 0) :
    fdiv a b = fRound (fSign a != fSign b) (fUnits a * fOneUnits) (fUnits b) := by
  simp only [fdiv, fVal_finite ha, fVal_finite hb, h0, if_false]

/-- Finite values compare as their exact values do (00_scope R12). -/
theorem fLt_finite {a b : F64} (ha : fExp a ≠ 2047) (hb : fExp b ≠ 2047) :
    fLt a b = decide (fInt a < fInt b) := by
  simp only [fLt, fVal_finite ha, fVal_finite hb, fInt]
  rfl

/-- A finite value truncated (00_scope R12). -/
theorem ftrunc_finite {x : F64} (h : fExp x ≠ 2047) :
    ftrunc x = signedInt (fSign x) (fUnits x / fOneUnits) := by
  simp only [ftrunc, fVal_finite h]

/-- The floor of a finite value that is not negative (00_scope R12). -/
theorem ffloor_finite {x : F64} (h : fExp x ≠ 2047) (hs : fSign x = false) :
    ffloor x = fUnits x / fOneUnits := by
  simp [ffloor, fVal_finite h, hs]

end Sys2Proof.Machine
end

