-- ==== Sys2Proof/Laws/Memory.lean ====
section
/-! SUPPORT. The laws of DMEM: a read after a write, the canonical form kept by every operation, and the
addresses listed. -/

namespace Sys2Proof.Machine

/-- Every listed address is below n. -/
abbrev Memory.Below (m : Memory) (n : Nat) : Prop := ∀ c ∈ m, c.1 < n

/-- A canonical list from hi on is canonical from any lower address on. -/
theorem Memory.wfFrom_mono {m : Memory} {lo hi : Nat} (h : lo ≤ hi) (hm : Memory.wfFrom hi m = true) :
    Memory.wfFrom lo m = true := by
  cases m with
  | nil => rfl
  | cons c m =>
    simp only [Memory.wfFrom, Bool.and_eq_true, decide_eq_true_eq] at hm ⊢
    exact ⟨⟨h.trans hm.1.1, hm.1.2⟩, hm.2⟩

/-- Below its first address a canonical memory reads blank. -/
theorem Memory.read_below {m : Memory} {lo a : Nat} (hm : Memory.wfFrom lo m = true) (h : a < lo) :
    Memory.read m a = Memory.blank := by
  induction m generalizing lo with
  | nil => rfl
  | cons c m ih =>
    simp only [Memory.wfFrom, Bool.and_eq_true, decide_eq_true_eq] at hm
    have hk : c.1 ≠ a := by omega
    simp only [Memory.read, hk, if_false]
    exact ih hm.2 (by omega)

/-- A write keeps the canonical form. -/
theorem Memory.wfFrom_write {m : Memory} {lo a : Nat} {v : Byte} (hm : Memory.wfFrom lo m = true)
    (ha : lo ≤ a) : Memory.wfFrom lo (Memory.write m a v) = true := by
  induction m generalizing lo with
  | nil => by_cases hv : v = Memory.blank <;> simp [Memory.write, Memory.wfFrom, hv, ha]
  | cons c m ih =>
    have hm' := hm
    simp only [Memory.wfFrom, Bool.and_eq_true, decide_eq_true_eq] at hm
    obtain ⟨⟨hlo, hb⟩, hrest⟩ := hm
    unfold Memory.write
    split_ifs with h1 h2 h3 h4
    · exact hm'
    · simp only [Memory.wfFrom, Bool.and_eq_true, decide_eq_true_eq]
      exact ⟨⟨ha, h2⟩, ⟨h1, hb⟩, hrest⟩
    · exact Memory.wfFrom_mono (by omega) hrest
    · simp only [Memory.wfFrom, Bool.and_eq_true, decide_eq_true_eq]
      exact ⟨⟨ha, h4⟩, h3 ▸ hrest⟩
    · simp only [Memory.wfFrom, Bool.and_eq_true, decide_eq_true_eq]
      exact ⟨⟨hlo, hb⟩, ih hrest (by omega)⟩

/-- A write keeps the canonical form. -/
theorem Memory.wf_write {m : Memory} (hm : Memory.wf m = true) (a : Nat) (v : Byte) :
    Memory.wf (Memory.write m a v) = true := Memory.wfFrom_write hm (Nat.zero_le a)

/-- A write of several bytes keeps the canonical form. -/
theorem Memory.wf_writeBytes {m : Memory} (hm : Memory.wf m = true) (a : Nat) (bs : List Byte) :
    Memory.wf (Memory.writeBytes m a bs) = true := by
  induction bs generalizing m a with
  | nil => exact hm
  | cons b bs ih => exact ih (Memory.wf_write hm a b) (a + 1)

/-- The memory after reset, with nothing listed, is canonical. -/
theorem Memory.wf_reset : Memory.wf State.reset.mem = true := rfl

/-- A byte just written reads as written. -/
theorem Memory.read_write_same {m : Memory} {lo : Nat} (hm : Memory.wfFrom lo m = true) (a : Nat)
    (v : Byte) : Memory.read (Memory.write m a v) a = v := by
  induction m generalizing lo with
  | nil => by_cases hv : v = Memory.blank <;> simp [Memory.write, Memory.read, hv]
  | cons c m ih =>
    simp only [Memory.wfFrom, Bool.and_eq_true, decide_eq_true_eq] at hm
    obtain ⟨⟨-, -⟩, hrest⟩ := hm
    unfold Memory.write
    split_ifs with h1 h2 h3 h4
    · have hk : c.1 ≠ a := by omega
      simp only [Memory.read, hk, if_false]
      rw [h2]; exact Memory.read_below hrest (by omega)
    · simp [Memory.read]
    · rw [h4]; exact Memory.read_below hrest (by omega)
    · simp [Memory.read]
    · have hk : c.1 ≠ a := by omega
      simp only [Memory.read, hk, if_false]
      exact ih hrest

/-- A write leaves every other byte alone. -/
theorem Memory.read_write_ne (m : Memory) {a x : Nat} (v : Byte) (h : x ≠ a) :
    Memory.read (Memory.write m a v) x = Memory.read m x := by
  induction m with
  | nil =>
    by_cases hv : v = Memory.blank <;> simp [Memory.write, Memory.read, hv, Ne.symm h]
  | cons c m ih =>
    unfold Memory.write
    split_ifs with h1 h2 h3 h4
    · rfl
    · simp [Memory.read, Ne.symm h]
    · have hk : c.1 ≠ x := by omega
      simp [Memory.read, hk]
    · have hk : c.1 ≠ x := by omega
      simp [Memory.read, Ne.symm h, hk]
    · by_cases hk : c.1 = x <;> simp [Memory.read, hk, ih]

/-- A read after a write, in canonical memory. -/
theorem Memory.read_write {m : Memory} (hm : Memory.wf m = true) (a x : Nat) (v : Byte) :
    Memory.read (Memory.write m a v) x = if x = a then v else Memory.read m x := by
  by_cases h : x = a
  · rw [if_pos h, h]; exact Memory.read_write_same hm a v
  · rw [if_neg h]; exact Memory.read_write_ne m v h

/-- A write of several bytes leaves every byte outside alone. -/
theorem Memory.read_writeBytes_outside (m : Memory) {a x : Nat} {bs : List Byte}
    (h : x < a ∨ a + bs.length ≤ x) : Memory.read (Memory.writeBytes m a bs) x = Memory.read m x := by
  induction bs generalizing m a with
  | nil => rfl
  | cons b bs ih =>
    simp only [List.length_cons] at h
    rw [Memory.writeBytes, ih _ (by omega), Memory.read_write_ne m b (by omega)]

/-- A write of several bytes stores each at its place. -/
theorem Memory.read_writeBytes_inside {m : Memory} (hm : Memory.wf m = true) {a k : Nat} {bs : List Byte}
    (h : k < bs.length) : Memory.read (Memory.writeBytes m a bs) (a + k) = bs[k] := by
  induction bs generalizing m a k with
  | nil => simp at h
  | cons b bs ih =>
    rw [Memory.writeBytes]
    cases k with
    | zero =>
      rw [Memory.read_writeBytes_outside _ (by omega)]
      exact Memory.read_write_same hm a b
    | succ k =>
      have := ih (Memory.wf_write hm a b) (a := a + 1) (k := k) (by simpa using h)
      rw [show a + (k + 1) = a + 1 + k by omega, this]
      rfl

/-- Two adjacent writes are one. -/
theorem Memory.writeBytes_append (m : Memory) (a : Nat) (xs ys : List Byte) :
    Memory.writeBytes m a (xs ++ ys) =
      Memory.writeBytes (Memory.writeBytes m a xs) (a + xs.length) ys := by
  induction xs generalizing m a with
  | nil => rfl
  | cons x xs ih =>
    simp only [List.cons_append, Memory.writeBytes, ih, List.length_cons]
    rw [show a + 1 + xs.length = a + (xs.length + 1) by omega]

/-- A write below n lists nothing at or above n. -/
theorem Memory.below_write {m : Memory} {n a : Nat} {v : Byte} (hm : Memory.Below m n) (ha : a < n) :
    Memory.Below (Memory.write m a v) n := by
  induction m with
  | nil => by_cases hv : v = Memory.blank <;> simp [Memory.Below, Memory.write, hv, ha]
  | cons c m ih =>
    have hrest : Memory.Below m n := fun d hd => hm d (List.mem_cons_of_mem c hd)
    unfold Memory.write
    split_ifs with h1 h2 h3 h4
    · exact hm
    · intro d hd
      rcases List.mem_cons.mp hd with rfl | hd
      · exact ha
      · exact hm d hd
    · exact hrest
    · intro d hd
      rcases List.mem_cons.mp hd with rfl | hd
      · exact ha
      · exact hrest d hd
    · intro d hd
      rcases List.mem_cons.mp hd with rfl | hd
      · exact hm _ List.mem_cons_self
      · exact ih hrest d hd

/-- A write of several bytes below n lists nothing at or above n. -/
theorem Memory.below_writeBytes {m : Memory} {n a : Nat} {bs : List Byte} (hm : Memory.Below m n)
    (ha : bs = [] ∨ a + bs.length ≤ n) : Memory.Below (Memory.writeBytes m a bs) n := by
  induction bs generalizing m a with
  | nil => exact hm
  | cons b bs ih =>
    have h : a + (bs.length + 1) ≤ n := by simpa using ha
    exact ih (Memory.below_write hm (by omega)) (.inr (by omega))

/-- A read of n bytes gives n bytes. -/
@[simp] theorem Memory.length_readBytes (m : Memory) (a n : Nat) :
    (Memory.readBytes m a n).length = n := by simp [Memory.readBytes]

/-- A read of several bytes takes them in ascending order. -/
theorem Memory.getElem_readBytes (m : Memory) (a n k : Nat) (h : k < (Memory.readBytes m a n).length) :
    (Memory.readBytes m a n)[k] = Memory.read m (a + k) := by simp [Memory.readBytes]

/-- A read of several bytes depends only on those bytes. -/
theorem Memory.readBytes_congr {m m' : Memory} {a n : Nat}
    (h : ∀ x, a ≤ x → x < a + n → Memory.read m x = Memory.read m' x) :
    Memory.readBytes m a n = Memory.readBytes m' a n := by
  refine List.map_congr_left fun k hk => h _ (Nat.le_add_right a k) ?_
  have := List.mem_range.mp hk
  omega

end Sys2Proof.Machine
end

