-- ==== Sys2Proof/Laws/State.lean ====
section
/-! SUPPORT. What each named update of the state does to each field: one lemma per field per update, so
that no later proof unfolds a record update. -/

namespace Sys2Proof.Machine

/-! ## Acceptance (44_control R201) -/

@[simp] theorem State.accept_cfg (s : State) : s.accept.cfg = s.cfg := rfl
@[simp] theorem State.accept_done (s : State) : s.accept.done = false := rfl
@[simp] theorem State.accept_err (s : State) : s.accept.err = false := rfl
@[simp] theorem State.accept_dropped (s : State) : s.accept.dropped = s.dropped := rfl
@[simp] theorem State.accept_errcode (s : State) : s.accept.errcode = 0 := rfl
@[simp] theorem State.accept_errslot (s : State) : s.accept.errslot = 0 := rfl
@[simp] theorem State.accept_irqEn (s : State) : s.accept.irqEn = s.irqEn := rfl
@[simp] theorem State.accept_length (s : State) : s.accept.length = s.length := rfl
@[simp] theorem State.accept_bitdepth (s : State) : s.accept.bitdepth = s.bitdepth := rfl
@[simp] theorem State.accept_channels (s : State) : s.accept.channels = s.channels := rfl
@[simp] theorem State.accept_nbuf (s : State) : s.accept.nbuf = s.nbuf := rfl
@[simp] theorem State.accept_nrec (s : State) : s.accept.nrec = s.nrec := rfl
@[simp] theorem State.accept_outBase (s : State) : s.accept.outBase = s.outBase := rfl
@[simp] theorem State.accept_opa (s : State) : s.accept.opa = s.opa := rfl
@[simp] theorem State.accept_opb (s : State) : s.accept.opb = s.opb := rfl
@[simp] theorem State.accept_opc (s : State) : s.accept.opc = s.opc := rfl
@[simp] theorem State.accept_res (s : State) : s.accept.res = s.res := rfl
@[simp] theorem State.accept_pos (s : State) : s.accept.pos = s.pos := rfl
@[simp] theorem State.accept_slots (s : State) : s.accept.slots = s.slots := rfl
@[simp] theorem State.accept_phase (s : State) : s.accept.phase = s.phase := rfl
@[simp] theorem State.accept_work (s : State) : s.accept.work = s.work := rfl
@[simp] theorem State.accept_beat (s : State) : s.accept.beat = s.beat := rfl
@[simp] theorem State.accept_held (s : State) : s.accept.held = s.held := rfl
@[simp] theorem State.accept_mem (s : State) : s.accept.mem = s.mem := rfl
@[simp] theorem State.accept_inputs (s : State) : s.accept.inputs = s.inputs := rfl
@[simp] theorem State.accept_regData (s : State) : s.accept.regData = s.regData := rfl
@[simp] theorem State.accept_memData (s : State) : s.accept.memData = s.memData := rfl
@[simp] theorem State.accept_duties (s : State) : s.accept.duties = s.duties := rfl
@[simp] theorem State.accept_tainted (s : State) : s.accept.tainted = s.tainted := rfl
@[simp] theorem State.accept_draws (s : State) : s.accept.draws = s.draws := rfl

/-! ## Completion (44_control R203) -/

@[simp] theorem State.complete_cfg (s : State) : s.complete.cfg = s.cfg := rfl
@[simp] theorem State.complete_done (s : State) : s.complete.done = true := rfl
@[simp] theorem State.complete_err (s : State) : s.complete.err = s.err := rfl
@[simp] theorem State.complete_dropped (s : State) : s.complete.dropped = s.dropped := rfl
@[simp] theorem State.complete_errcode (s : State) : s.complete.errcode = s.errcode := rfl
@[simp] theorem State.complete_errslot (s : State) : s.complete.errslot = s.errslot := rfl
@[simp] theorem State.complete_irqEn (s : State) : s.complete.irqEn = s.irqEn := rfl
@[simp] theorem State.complete_length (s : State) : s.complete.length = s.length := rfl
@[simp] theorem State.complete_bitdepth (s : State) : s.complete.bitdepth = s.bitdepth := rfl
@[simp] theorem State.complete_channels (s : State) : s.complete.channels = s.channels := rfl
@[simp] theorem State.complete_nbuf (s : State) : s.complete.nbuf = s.nbuf := rfl
@[simp] theorem State.complete_nrec (s : State) : s.complete.nrec = s.nrec := rfl
@[simp] theorem State.complete_outBase (s : State) : s.complete.outBase = s.outBase := rfl
@[simp] theorem State.complete_opa (s : State) : s.complete.opa = s.opa := rfl
@[simp] theorem State.complete_opb (s : State) : s.complete.opb = s.opb := rfl
@[simp] theorem State.complete_opc (s : State) : s.complete.opc = s.opc := rfl
@[simp] theorem State.complete_res (s : State) : s.complete.res = s.res := rfl
@[simp] theorem State.complete_pos (s : State) : s.complete.pos = s.pos := rfl
@[simp] theorem State.complete_slots (s : State) : s.complete.slots = s.slots := rfl
@[simp] theorem State.complete_phase (s : State) : s.complete.phase = s.phase := rfl
@[simp] theorem State.complete_work (s : State) : s.complete.work = s.work := rfl
@[simp] theorem State.complete_beat (s : State) : s.complete.beat = s.beat := rfl
@[simp] theorem State.complete_held (s : State) : s.complete.held = s.held := rfl
@[simp] theorem State.complete_mem (s : State) : s.complete.mem = s.mem := rfl
@[simp] theorem State.complete_inputs (s : State) : s.complete.inputs = s.inputs := rfl
@[simp] theorem State.complete_regData (s : State) : s.complete.regData = s.regData := rfl
@[simp] theorem State.complete_memData (s : State) : s.complete.memData = s.memData := rfl
@[simp] theorem State.complete_duties (s : State) : s.complete.duties = s.duties := rfl
@[simp] theorem State.complete_tainted (s : State) : s.complete.tainted = s.tainted := rfl
@[simp] theorem State.complete_draws (s : State) : s.complete.draws = s.draws := rfl

/-! ## Error entry (60_exceptions R230) -/

@[simp] theorem State.raise_cfg (s : State) (c : ErrCode) (i : Nat) : (s.raise c i).cfg = s.cfg := rfl
@[simp] theorem State.raise_done (s : State) (c : ErrCode) (i : Nat) : (s.raise c i).done = s.done := rfl
@[simp] theorem State.raise_err (s : State) (c : ErrCode) (i : Nat) : (s.raise c i).err = true := rfl
@[simp] theorem State.raise_dropped (s : State) (c : ErrCode) (i : Nat) :
    (s.raise c i).dropped =
      s.dropped := rfl
@[simp] theorem State.raise_errcode (s : State) (c : ErrCode) (i : Nat) :
    (s.raise c i).errcode =
      c.code := rfl
@[simp] theorem State.raise_errslot (s : State) (c : ErrCode) (i : Nat) :
    (s.raise c i).errslot =
      BitVec.ofNat 16 i := rfl
@[simp] theorem State.raise_irqEn (s : State) (c : ErrCode) (i : Nat) : (s.raise c i).irqEn = s.irqEn := rfl
@[simp] theorem State.raise_length (s : State) (c : ErrCode) (i : Nat) :
    (s.raise c i).length =
      s.length := rfl
@[simp] theorem State.raise_bitdepth (s : State) (c : ErrCode) (i : Nat) :
    (s.raise c i).bitdepth =
      s.bitdepth := rfl
@[simp] theorem State.raise_channels (s : State) (c : ErrCode) (i : Nat) :
    (s.raise c i).channels =
      s.channels := rfl
@[simp] theorem State.raise_nbuf (s : State) (c : ErrCode) (i : Nat) : (s.raise c i).nbuf = s.nbuf := rfl
@[simp] theorem State.raise_nrec (s : State) (c : ErrCode) (i : Nat) : (s.raise c i).nrec = s.nrec := rfl
@[simp] theorem State.raise_outBase (s : State) (c : ErrCode) (i : Nat) :
    (s.raise c i).outBase =
      s.outBase := rfl
@[simp] theorem State.raise_opa (s : State) (c : ErrCode) (i : Nat) : (s.raise c i).opa = s.opa := rfl
@[simp] theorem State.raise_opb (s : State) (c : ErrCode) (i : Nat) : (s.raise c i).opb = s.opb := rfl
@[simp] theorem State.raise_opc (s : State) (c : ErrCode) (i : Nat) : (s.raise c i).opc = s.opc := rfl
@[simp] theorem State.raise_res (s : State) (c : ErrCode) (i : Nat) : (s.raise c i).res = s.res := rfl
@[simp] theorem State.raise_pos (s : State) (c : ErrCode) (i : Nat) : (s.raise c i).pos = s.pos := rfl
@[simp] theorem State.raise_slots (s : State) (c : ErrCode) (i : Nat) : (s.raise c i).slots = s.slots := rfl
@[simp] theorem State.raise_phase (s : State) (c : ErrCode) (i : Nat) : (s.raise c i).phase = s.phase := rfl
@[simp] theorem State.raise_work (s : State) (c : ErrCode) (i : Nat) : (s.raise c i).work = s.work := rfl
@[simp] theorem State.raise_beat (s : State) (c : ErrCode) (i : Nat) : (s.raise c i).beat = s.beat := rfl
@[simp] theorem State.raise_held (s : State) (c : ErrCode) (i : Nat) : (s.raise c i).held = s.held := rfl
@[simp] theorem State.raise_mem (s : State) (c : ErrCode) (i : Nat) : (s.raise c i).mem = s.mem := rfl
@[simp] theorem State.raise_inputs (s : State) (c : ErrCode) (i : Nat) :
    (s.raise c i).inputs =
      s.inputs := rfl
@[simp] theorem State.raise_regData (s : State) (c : ErrCode) (i : Nat) :
    (s.raise c i).regData =
      s.regData := rfl
@[simp] theorem State.raise_memData (s : State) (c : ErrCode) (i : Nat) :
    (s.raise c i).memData =
      s.memData := rfl
@[simp] theorem State.raise_duties (s : State) (c : ErrCode) (i : Nat) :
    (s.raise c i).duties =
      s.duties := rfl
@[simp] theorem State.raise_tainted (s : State) (c : ErrCode) (i : Nat) :
    (s.raise c i).tainted =
      s.tainted := rfl
@[simp] theorem State.raise_draws (s : State) (c : ErrCode) (i : Nat) : (s.raise c i).draws = s.draws := rfl

/-! ## A dropped command (44_control R202) -/

@[simp] theorem State.drop_cfg (s : State) : s.drop.cfg = s.cfg := rfl
@[simp] theorem State.drop_done (s : State) : s.drop.done = s.done := rfl
@[simp] theorem State.drop_err (s : State) : s.drop.err = s.err := rfl
@[simp] theorem State.drop_dropped (s : State) : s.drop.dropped = true := rfl
@[simp] theorem State.drop_errcode (s : State) : s.drop.errcode = s.errcode := rfl
@[simp] theorem State.drop_errslot (s : State) : s.drop.errslot = s.errslot := rfl
@[simp] theorem State.drop_irqEn (s : State) : s.drop.irqEn = s.irqEn := rfl
@[simp] theorem State.drop_length (s : State) : s.drop.length = s.length := rfl
@[simp] theorem State.drop_bitdepth (s : State) : s.drop.bitdepth = s.bitdepth := rfl
@[simp] theorem State.drop_channels (s : State) : s.drop.channels = s.channels := rfl
@[simp] theorem State.drop_nbuf (s : State) : s.drop.nbuf = s.nbuf := rfl
@[simp] theorem State.drop_nrec (s : State) : s.drop.nrec = s.nrec := rfl
@[simp] theorem State.drop_outBase (s : State) : s.drop.outBase = s.outBase := rfl
@[simp] theorem State.drop_opa (s : State) : s.drop.opa = s.opa := rfl
@[simp] theorem State.drop_opb (s : State) : s.drop.opb = s.opb := rfl
@[simp] theorem State.drop_opc (s : State) : s.drop.opc = s.opc := rfl
@[simp] theorem State.drop_res (s : State) : s.drop.res = s.res := rfl
@[simp] theorem State.drop_pos (s : State) : s.drop.pos = s.pos := rfl
@[simp] theorem State.drop_slots (s : State) : s.drop.slots = s.slots := rfl
@[simp] theorem State.drop_phase (s : State) : s.drop.phase = s.phase := rfl
@[simp] theorem State.drop_work (s : State) : s.drop.work = s.work := rfl
@[simp] theorem State.drop_beat (s : State) : s.drop.beat = s.beat := rfl
@[simp] theorem State.drop_held (s : State) : s.drop.held = s.held := rfl
@[simp] theorem State.drop_mem (s : State) : s.drop.mem = s.mem := rfl
@[simp] theorem State.drop_inputs (s : State) : s.drop.inputs = s.inputs := rfl
@[simp] theorem State.drop_regData (s : State) : s.drop.regData = s.regData := rfl
@[simp] theorem State.drop_memData (s : State) : s.drop.memData = s.memData := rfl
@[simp] theorem State.drop_duties (s : State) : s.drop.duties = s.duties := rfl
@[simp] theorem State.drop_tainted (s : State) : s.drop.tainted = s.tainted := rfl
@[simp] theorem State.drop_draws (s : State) : s.drop.draws = s.draws := rfl

/-! ## A slot replaced (10_state R40) -/

@[simp] theorem State.setSlot_cfg (s : State) (i : Nat) (x : Slot) : (s.setSlot i x).cfg = s.cfg := rfl
@[simp] theorem State.setSlot_done (s : State) (i : Nat) (x : Slot) : (s.setSlot i x).done = s.done := rfl
@[simp] theorem State.setSlot_err (s : State) (i : Nat) (x : Slot) : (s.setSlot i x).err = s.err := rfl
@[simp] theorem State.setSlot_dropped (s : State) (i : Nat) (x : Slot) :
    (s.setSlot i x).dropped =
      s.dropped := rfl
@[simp] theorem State.setSlot_errcode (s : State) (i : Nat) (x : Slot) :
    (s.setSlot i x).errcode =
      s.errcode := rfl
@[simp] theorem State.setSlot_errslot (s : State) (i : Nat) (x : Slot) :
    (s.setSlot i x).errslot =
      s.errslot := rfl
@[simp] theorem State.setSlot_irqEn (s : State) (i : Nat) (x : Slot) :
    (s.setSlot i x).irqEn =
      s.irqEn := rfl
@[simp] theorem State.setSlot_length (s : State) (i : Nat) (x : Slot) :
    (s.setSlot i x).length =
      s.length := rfl
@[simp] theorem State.setSlot_bitdepth (s : State) (i : Nat) (x : Slot) :
    (s.setSlot i x).bitdepth =
      s.bitdepth := rfl
@[simp] theorem State.setSlot_channels (s : State) (i : Nat) (x : Slot) :
    (s.setSlot i x).channels =
      s.channels := rfl
@[simp] theorem State.setSlot_nbuf (s : State) (i : Nat) (x : Slot) : (s.setSlot i x).nbuf = s.nbuf := rfl
@[simp] theorem State.setSlot_nrec (s : State) (i : Nat) (x : Slot) : (s.setSlot i x).nrec = s.nrec := rfl
@[simp] theorem State.setSlot_outBase (s : State) (i : Nat) (x : Slot) :
    (s.setSlot i x).outBase =
      s.outBase := rfl
@[simp] theorem State.setSlot_opa (s : State) (i : Nat) (x : Slot) : (s.setSlot i x).opa = s.opa := rfl
@[simp] theorem State.setSlot_opb (s : State) (i : Nat) (x : Slot) : (s.setSlot i x).opb = s.opb := rfl
@[simp] theorem State.setSlot_opc (s : State) (i : Nat) (x : Slot) : (s.setSlot i x).opc = s.opc := rfl
@[simp] theorem State.setSlot_res (s : State) (i : Nat) (x : Slot) : (s.setSlot i x).res = s.res := rfl
@[simp] theorem State.setSlot_pos (s : State) (i : Nat) (x : Slot) : (s.setSlot i x).pos = s.pos := rfl
@[simp] theorem State.setSlot_slots (s : State) (i : Nat) (x : Slot) :
    (s.setSlot i x).slots =
      s.slots.set i x := rfl
@[simp] theorem State.setSlot_phase (s : State) (i : Nat) (x : Slot) :
    (s.setSlot i x).phase =
      s.phase := rfl
@[simp] theorem State.setSlot_work (s : State) (i : Nat) (x : Slot) : (s.setSlot i x).work = s.work := rfl
@[simp] theorem State.setSlot_beat (s : State) (i : Nat) (x : Slot) : (s.setSlot i x).beat = s.beat := rfl
@[simp] theorem State.setSlot_held (s : State) (i : Nat) (x : Slot) : (s.setSlot i x).held = s.held := rfl
@[simp] theorem State.setSlot_mem (s : State) (i : Nat) (x : Slot) : (s.setSlot i x).mem = s.mem := rfl
@[simp] theorem State.setSlot_inputs (s : State) (i : Nat) (x : Slot) :
    (s.setSlot i x).inputs =
      s.inputs := rfl
@[simp] theorem State.setSlot_regData (s : State) (i : Nat) (x : Slot) :
    (s.setSlot i x).regData =
      s.regData := rfl
@[simp] theorem State.setSlot_memData (s : State) (i : Nat) (x : Slot) :
    (s.setSlot i x).memData =
      s.memData := rfl
@[simp] theorem State.setSlot_duties (s : State) (i : Nat) (x : Slot) :
    (s.setSlot i x).duties =
      s.duties := rfl
@[simp] theorem State.setSlot_tainted (s : State) (i : Nat) (x : Slot) :
    (s.setSlot i x).tainted =
      s.tainted := rfl
@[simp] theorem State.setSlot_draws (s : State) (i : Nat) (x : Slot) :
    (s.setSlot i x).draws =
      s.draws := rfl

/-! ## A write to STATUS (10_state R26) -/

@[simp] theorem State.clearStatus_cfg (s : State) (v : Word) : (s.clearStatus v).cfg = s.cfg := rfl
@[simp] theorem State.clearStatus_done (s : State) (v : Word) :
    (s.clearStatus v).done =
      (s.done && !v.getLsbD 1) := rfl
@[simp] theorem State.clearStatus_err (s : State) (v : Word) :
    (s.clearStatus v).err =
      (s.err && !v.getLsbD 2) := rfl
@[simp] theorem State.clearStatus_dropped (s : State) (v : Word) :
    (s.clearStatus v).dropped =
      (s.dropped && !v.getLsbD 3) := rfl
@[simp] theorem State.clearStatus_errcode (s : State) (v : Word) :
    (s.clearStatus v).errcode =
      s.errcode := rfl
@[simp] theorem State.clearStatus_errslot (s : State) (v : Word) :
    (s.clearStatus v).errslot =
      s.errslot := rfl
@[simp] theorem State.clearStatus_irqEn (s : State) (v : Word) : (s.clearStatus v).irqEn = s.irqEn := rfl
@[simp] theorem State.clearStatus_length (s : State) (v : Word) : (s.clearStatus v).length = s.length := rfl
@[simp] theorem State.clearStatus_bitdepth (s : State) (v : Word) :
    (s.clearStatus v).bitdepth =
      s.bitdepth := rfl
@[simp] theorem State.clearStatus_channels (s : State) (v : Word) :
    (s.clearStatus v).channels =
      s.channels := rfl
@[simp] theorem State.clearStatus_nbuf (s : State) (v : Word) : (s.clearStatus v).nbuf = s.nbuf := rfl
@[simp] theorem State.clearStatus_nrec (s : State) (v : Word) : (s.clearStatus v).nrec = s.nrec := rfl
@[simp] theorem State.clearStatus_outBase (s : State) (v : Word) :
    (s.clearStatus v).outBase =
      s.outBase := rfl
@[simp] theorem State.clearStatus_opa (s : State) (v : Word) : (s.clearStatus v).opa = s.opa := rfl
@[simp] theorem State.clearStatus_opb (s : State) (v : Word) : (s.clearStatus v).opb = s.opb := rfl
@[simp] theorem State.clearStatus_opc (s : State) (v : Word) : (s.clearStatus v).opc = s.opc := rfl
@[simp] theorem State.clearStatus_res (s : State) (v : Word) : (s.clearStatus v).res = s.res := rfl
@[simp] theorem State.clearStatus_pos (s : State) (v : Word) : (s.clearStatus v).pos = s.pos := rfl
@[simp] theorem State.clearStatus_slots (s : State) (v : Word) : (s.clearStatus v).slots = s.slots := rfl
@[simp] theorem State.clearStatus_phase (s : State) (v : Word) : (s.clearStatus v).phase = s.phase := rfl
@[simp] theorem State.clearStatus_work (s : State) (v : Word) : (s.clearStatus v).work = s.work := rfl
@[simp] theorem State.clearStatus_beat (s : State) (v : Word) : (s.clearStatus v).beat = s.beat := rfl
@[simp] theorem State.clearStatus_held (s : State) (v : Word) : (s.clearStatus v).held = s.held := rfl
@[simp] theorem State.clearStatus_mem (s : State) (v : Word) : (s.clearStatus v).mem = s.mem := rfl
@[simp] theorem State.clearStatus_inputs (s : State) (v : Word) : (s.clearStatus v).inputs = s.inputs := rfl
@[simp] theorem State.clearStatus_regData (s : State) (v : Word) :
    (s.clearStatus v).regData =
      s.regData := rfl
@[simp] theorem State.clearStatus_memData (s : State) (v : Word) :
    (s.clearStatus v).memData =
      s.memData := rfl
@[simp] theorem State.clearStatus_duties (s : State) (v : Word) : (s.clearStatus v).duties = s.duties := rfl
@[simp] theorem State.clearStatus_tainted (s : State) (v : Word) :
    (s.clearStatus v).tainted =
      s.tainted := rfl
@[simp] theorem State.clearStatus_draws (s : State) (v : Word) : (s.clearStatus v).draws = s.draws := rfl

/-! ## A window of free values (70 R266) -/

@[simp] theorem State.havoc_cfg (s : State) (w : Window) : (s.havoc w).cfg = s.cfg := rfl
@[simp] theorem State.havoc_done (s : State) (w : Window) : (s.havoc w).done = s.done := rfl
@[simp] theorem State.havoc_err (s : State) (w : Window) : (s.havoc w).err = s.err := rfl
@[simp] theorem State.havoc_dropped (s : State) (w : Window) : (s.havoc w).dropped = s.dropped := rfl
@[simp] theorem State.havoc_errcode (s : State) (w : Window) : (s.havoc w).errcode = s.errcode := rfl
@[simp] theorem State.havoc_errslot (s : State) (w : Window) : (s.havoc w).errslot = s.errslot := rfl
@[simp] theorem State.havoc_irqEn (s : State) (w : Window) : (s.havoc w).irqEn = s.irqEn := rfl
@[simp] theorem State.havoc_length (s : State) (w : Window) : (s.havoc w).length = s.length := rfl
@[simp] theorem State.havoc_bitdepth (s : State) (w : Window) : (s.havoc w).bitdepth = s.bitdepth := rfl
@[simp] theorem State.havoc_channels (s : State) (w : Window) : (s.havoc w).channels = s.channels := rfl
@[simp] theorem State.havoc_nbuf (s : State) (w : Window) : (s.havoc w).nbuf = s.nbuf := rfl
@[simp] theorem State.havoc_nrec (s : State) (w : Window) : (s.havoc w).nrec = s.nrec := rfl
@[simp] theorem State.havoc_outBase (s : State) (w : Window) : (s.havoc w).outBase = s.outBase := rfl
@[simp] theorem State.havoc_opa (s : State) (w : Window) : (s.havoc w).opa = s.opa := rfl
@[simp] theorem State.havoc_opb (s : State) (w : Window) : (s.havoc w).opb = s.opb := rfl
@[simp] theorem State.havoc_opc (s : State) (w : Window) : (s.havoc w).opc = s.opc := rfl
@[simp] theorem State.havoc_res (s : State) (w : Window) : (s.havoc w).res = s.res := rfl
@[simp] theorem State.havoc_pos (s : State) (w : Window) : (s.havoc w).pos = s.pos := rfl
@[simp] theorem State.havoc_slots (s : State) (w : Window) : (s.havoc w).slots = s.slots := rfl
@[simp] theorem State.havoc_phase (s : State) (w : Window) : (s.havoc w).phase = s.phase := rfl
@[simp] theorem State.havoc_work (s : State) (w : Window) : (s.havoc w).work = s.work := rfl
@[simp] theorem State.havoc_beat (s : State) (w : Window) : (s.havoc w).beat = s.beat := rfl
@[simp] theorem State.havoc_held (s : State) (w : Window) : (s.havoc w).held = s.held := rfl
@[simp] theorem State.havoc_mem (s : State) (w : Window) :
    (s.havoc w).mem =
      Memory.writeBytes s.mem w.base (s.freeBytes w.size) := rfl
@[simp] theorem State.havoc_inputs (s : State) (w : Window) : (s.havoc w).inputs = s.inputs := rfl
@[simp] theorem State.havoc_regData (s : State) (w : Window) : (s.havoc w).regData = s.regData := rfl
@[simp] theorem State.havoc_memData (s : State) (w : Window) : (s.havoc w).memData = s.memData := rfl
@[simp] theorem State.havoc_duties (s : State) (w : Window) : (s.havoc w).duties = s.duties := rfl
@[simp] theorem State.havoc_tainted (s : State) (w : Window) : (s.havoc w).tainted = s.tainted := rfl
@[simp] theorem State.havoc_draws (s : State) (w : Window) : (s.havoc w).draws = s.draws + w.size := rfl

/-! ## Acceptance of a MIX (43_mixer R170) -/

@[simp] theorem State.acceptMix_cfg (s : State) : s.acceptMix.cfg = s.cfg := rfl
@[simp] theorem State.acceptMix_done (s : State) : s.acceptMix.done = s.done := rfl
@[simp] theorem State.acceptMix_err (s : State) : s.acceptMix.err = s.err := rfl
@[simp] theorem State.acceptMix_dropped (s : State) : s.acceptMix.dropped = s.dropped := rfl
@[simp] theorem State.acceptMix_errcode (s : State) : s.acceptMix.errcode = s.errcode := rfl
@[simp] theorem State.acceptMix_errslot (s : State) : s.acceptMix.errslot = s.errslot := rfl
@[simp] theorem State.acceptMix_irqEn (s : State) : s.acceptMix.irqEn = s.irqEn := rfl
@[simp] theorem State.acceptMix_length (s : State) : s.acceptMix.length = s.length := rfl
@[simp] theorem State.acceptMix_bitdepth (s : State) : s.acceptMix.bitdepth = s.bitdepth := rfl
@[simp] theorem State.acceptMix_channels (s : State) : s.acceptMix.channels = s.channels := rfl
@[simp] theorem State.acceptMix_nbuf (s : State) : s.acceptMix.nbuf = s.nbuf := rfl
@[simp] theorem State.acceptMix_nrec (s : State) : s.acceptMix.nrec = s.nrec := rfl
@[simp] theorem State.acceptMix_outBase (s : State) : s.acceptMix.outBase = s.outBase := rfl
@[simp] theorem State.acceptMix_opa (s : State) : s.acceptMix.opa = s.opa := rfl
@[simp] theorem State.acceptMix_opb (s : State) : s.acceptMix.opb = s.opb := rfl
@[simp] theorem State.acceptMix_opc (s : State) : s.acceptMix.opc = s.opc := rfl
@[simp] theorem State.acceptMix_res (s : State) : s.acceptMix.res = s.res := rfl
@[simp] theorem State.acceptMix_pos (s : State) : s.acceptMix.pos = 0 := rfl
@[simp] theorem State.acceptMix_slots (s : State) : s.acceptMix.slots = s.slots := rfl
@[simp] theorem State.acceptMix_phase (s : State) : s.acceptMix.phase = .sample := rfl
@[simp] theorem State.acceptMix_work (s : State) :
    s.acceptMix.work =
      s.work.mapIdx fun i r => if i < s.count then (s.slot i).record else r := rfl
@[simp] theorem State.acceptMix_beat (s : State) : s.acceptMix.beat = 0 := rfl
@[simp] theorem State.acceptMix_held (s : State) : s.acceptMix.held = [] := rfl
@[simp] theorem State.acceptMix_mem (s : State) : s.acceptMix.mem = s.mem := rfl
@[simp] theorem State.acceptMix_inputs (s : State) : s.acceptMix.inputs = s.inputs := rfl
@[simp] theorem State.acceptMix_regData (s : State) : s.acceptMix.regData = s.regData := rfl
@[simp] theorem State.acceptMix_memData (s : State) : s.acceptMix.memData = s.memData := rfl
@[simp] theorem State.acceptMix_duties (s : State) : s.acceptMix.duties = s.runDuty :: s.duties := rfl
@[simp] theorem State.acceptMix_tainted (s : State) : s.acceptMix.tainted = false := rfl
@[simp] theorem State.acceptMix_draws (s : State) : s.acceptMix.draws = s.draws := rfl

/-! ## The run moved to where it stands (43_mixer R172, R176) -/

@[simp] theorem State.advance_cfg (s : State) : s.advance.cfg = s.cfg := rfl
@[simp] theorem State.advance_done (s : State) : s.advance.done = s.done := rfl
@[simp] theorem State.advance_err (s : State) : s.advance.err = s.err := rfl
@[simp] theorem State.advance_dropped (s : State) : s.advance.dropped = s.dropped := rfl
@[simp] theorem State.advance_errcode (s : State) : s.advance.errcode = s.errcode := rfl
@[simp] theorem State.advance_errslot (s : State) : s.advance.errslot = s.errslot := rfl
@[simp] theorem State.advance_irqEn (s : State) : s.advance.irqEn = s.irqEn := rfl
@[simp] theorem State.advance_length (s : State) : s.advance.length = s.length := rfl
@[simp] theorem State.advance_bitdepth (s : State) : s.advance.bitdepth = s.bitdepth := rfl
@[simp] theorem State.advance_channels (s : State) : s.advance.channels = s.channels := rfl
@[simp] theorem State.advance_nbuf (s : State) : s.advance.nbuf = s.nbuf := rfl
@[simp] theorem State.advance_nrec (s : State) : s.advance.nrec = s.nrec := rfl
@[simp] theorem State.advance_outBase (s : State) : s.advance.outBase = s.outBase := rfl
@[simp] theorem State.advance_opa (s : State) : s.advance.opa = s.opa := rfl
@[simp] theorem State.advance_opb (s : State) : s.advance.opb = s.opb := rfl
@[simp] theorem State.advance_opc (s : State) : s.advance.opc = s.opc := rfl
@[simp] theorem State.advance_res (s : State) : s.advance.res = s.res := rfl
@[simp] theorem State.advance_pos (s : State) : s.advance.pos = s.pos := rfl
@[simp] theorem State.advance_slots (s : State) : s.advance.slots = s.slots := rfl
@[simp] theorem State.advance_phase (s : State) : s.advance.phase = s.nextPhase := rfl
@[simp] theorem State.advance_work (s : State) : s.advance.work = s.work := rfl
@[simp] theorem State.advance_beat (s : State) : s.advance.beat = s.beat := rfl
@[simp] theorem State.advance_held (s : State) : s.advance.held = s.held := rfl
@[simp] theorem State.advance_mem (s : State) : s.advance.mem = s.mem := rfl
@[simp] theorem State.advance_inputs (s : State) : s.advance.inputs = s.inputs := rfl
@[simp] theorem State.advance_regData (s : State) : s.advance.regData = s.regData := rfl
@[simp] theorem State.advance_memData (s : State) : s.advance.memData = s.memData := rfl
@[simp] theorem State.advance_duties (s : State) : s.advance.duties = s.duties := rfl
@[simp] theorem State.advance_tainted (s : State) : s.advance.tainted = s.tainted := rfl
@[simp] theorem State.advance_draws (s : State) : s.advance.draws = s.draws := rfl

/-! ## The finish of a run (43_mixer R178) -/

@[simp] theorem State.finishRun_cfg (s : State) : s.finishRun.cfg = s.cfg := rfl
@[simp] theorem State.finishRun_done (s : State) : s.finishRun.done = true := rfl
@[simp] theorem State.finishRun_err (s : State) : s.finishRun.err = s.err := rfl
@[simp] theorem State.finishRun_dropped (s : State) : s.finishRun.dropped = s.dropped := rfl
@[simp] theorem State.finishRun_errcode (s : State) : s.finishRun.errcode = s.errcode := rfl
@[simp] theorem State.finishRun_errslot (s : State) : s.finishRun.errslot = s.errslot := rfl
@[simp] theorem State.finishRun_irqEn (s : State) : s.finishRun.irqEn = s.irqEn := rfl
@[simp] theorem State.finishRun_length (s : State) : s.finishRun.length = s.length := rfl
@[simp] theorem State.finishRun_bitdepth (s : State) : s.finishRun.bitdepth = s.bitdepth := rfl
@[simp] theorem State.finishRun_channels (s : State) : s.finishRun.channels = s.channels := rfl
@[simp] theorem State.finishRun_nbuf (s : State) : s.finishRun.nbuf = s.nbuf := rfl
@[simp] theorem State.finishRun_nrec (s : State) : s.finishRun.nrec = s.nrec := rfl
@[simp] theorem State.finishRun_outBase (s : State) : s.finishRun.outBase = s.outBase := rfl
@[simp] theorem State.finishRun_opa (s : State) : s.finishRun.opa = s.opa := rfl
@[simp] theorem State.finishRun_opb (s : State) : s.finishRun.opb = s.opb := rfl
@[simp] theorem State.finishRun_opc (s : State) : s.finishRun.opc = s.opc := rfl
@[simp] theorem State.finishRun_res (s : State) : s.finishRun.res = s.res := rfl
@[simp] theorem State.finishRun_pos (s : State) : s.finishRun.pos = s.pos := rfl
@[simp] theorem State.finishRun_slots (s : State) :
    s.finishRun.slots =
      s.slots.mapIdx fun i x => if i < s.count then Slot.store x (s.workAt i) else x := rfl
@[simp] theorem State.finishRun_phase (s : State) : s.finishRun.phase = .idle := rfl
@[simp] theorem State.finishRun_work (s : State) : s.finishRun.work = s.work := rfl
@[simp] theorem State.finishRun_beat (s : State) : s.finishRun.beat = 0 := rfl
@[simp] theorem State.finishRun_held (s : State) : s.finishRun.held = [] := rfl
@[simp] theorem State.finishRun_mem (s : State) : s.finishRun.mem = s.mem := rfl
@[simp] theorem State.finishRun_inputs (s : State) : s.finishRun.inputs = s.inputs := rfl
@[simp] theorem State.finishRun_regData (s : State) : s.finishRun.regData = s.regData := rfl
@[simp] theorem State.finishRun_memData (s : State) : s.finishRun.memData = s.memData := rfl
@[simp] theorem State.finishRun_duties (s : State) : s.finishRun.duties = s.duties := rfl
@[simp] theorem State.finishRun_tainted (s : State) : s.finishRun.tainted = false := rfl
@[simp] theorem State.finishRun_draws (s : State) : s.finishRun.draws = s.draws := rfl

/-! ## Reset (70 R260) -/

@[simp] theorem State.resetInput_cfg (s : State) : s.resetInput.cfg = s.cfg := rfl
@[simp] theorem State.resetInput_done (s : State) : s.resetInput.done = false := rfl
@[simp] theorem State.resetInput_err (s : State) : s.resetInput.err = false := rfl
@[simp] theorem State.resetInput_dropped (s : State) : s.resetInput.dropped = false := rfl
@[simp] theorem State.resetInput_errcode (s : State) : s.resetInput.errcode = 0 := rfl
@[simp] theorem State.resetInput_errslot (s : State) : s.resetInput.errslot = 0 := rfl
@[simp] theorem State.resetInput_irqEn (s : State) : s.resetInput.irqEn = false := rfl
@[simp] theorem State.resetInput_length (s : State) : s.resetInput.length = 0 := rfl
@[simp] theorem State.resetInput_bitdepth (s : State) : s.resetInput.bitdepth = 0 := rfl
@[simp] theorem State.resetInput_channels (s : State) : s.resetInput.channels = 0 := rfl
@[simp] theorem State.resetInput_nbuf (s : State) : s.resetInput.nbuf = 0 := rfl
@[simp] theorem State.resetInput_nrec (s : State) : s.resetInput.nrec = 0 := rfl
@[simp] theorem State.resetInput_outBase (s : State) : s.resetInput.outBase = 0 := rfl
@[simp] theorem State.resetInput_opa (s : State) : s.resetInput.opa = 0 := rfl
@[simp] theorem State.resetInput_opb (s : State) : s.resetInput.opb = 0 := rfl
@[simp] theorem State.resetInput_opc (s : State) : s.resetInput.opc = 0 := rfl
@[simp] theorem State.resetInput_res (s : State) : s.resetInput.res = 0 := rfl
@[simp] theorem State.resetInput_pos (s : State) : s.resetInput.pos = 0 := rfl
@[simp] theorem State.resetInput_slots (s : State) :
    s.resetInput.slots =
      List.replicate s.cfg.maxSources Slot.reset := rfl
@[simp] theorem State.resetInput_phase (s : State) : s.resetInput.phase = .idle := rfl
@[simp] theorem State.resetInput_work (s : State) :
    s.resetInput.work =
      List.replicate s.cfg.maxSources Work.unloaded := rfl
@[simp] theorem State.resetInput_beat (s : State) : s.resetInput.beat = 0 := rfl
@[simp] theorem State.resetInput_held (s : State) : s.resetInput.held = [] := rfl
@[simp] theorem State.resetInput_mem (s : State) : s.resetInput.mem = s.mem := rfl
@[simp] theorem State.resetInput_inputs (s : State) : s.resetInput.inputs = s.inputs := rfl
@[simp] theorem State.resetInput_regData (s : State) : s.resetInput.regData = s.regData := rfl
@[simp] theorem State.resetInput_memData (s : State) : s.resetInput.memData = s.memData := rfl
@[simp] theorem State.resetInput_duties (s : State) : s.resetInput.duties = [] := rfl
@[simp] theorem State.resetInput_tainted (s : State) : s.resetInput.tainted = false := rfl
@[simp] theorem State.resetInput_draws (s : State) : s.resetInput.draws = s.draws := rfl

/-! ## The end of a sample step (43_mixer R172 to R174) -/

@[simp] theorem State.endSample_cfg (w : List Work) (s : State) : (State.endSample w s).cfg = s.cfg := rfl
@[simp] theorem State.endSample_done (w : List Work) (s : State) :
    (State.endSample w s).done = s.done := rfl
@[simp] theorem State.endSample_err (w : List Work) (s : State) : (State.endSample w s).err = s.err := rfl
@[simp] theorem State.endSample_dropped (w : List Work) (s : State) :
    (State.endSample w s).dropped = s.dropped := rfl
@[simp] theorem State.endSample_errcode (w : List Work) (s : State) :
    (State.endSample w s).errcode = s.errcode := rfl
@[simp] theorem State.endSample_errslot (w : List Work) (s : State) :
    (State.endSample w s).errslot = s.errslot := rfl
@[simp] theorem State.endSample_irqEn (w : List Work) (s : State) :
    (State.endSample w s).irqEn = s.irqEn := rfl
@[simp] theorem State.endSample_length (w : List Work) (s : State) :
    (State.endSample w s).length = s.length := rfl
@[simp] theorem State.endSample_bitdepth (w : List Work) (s : State) :
    (State.endSample w s).bitdepth = s.bitdepth := rfl
@[simp] theorem State.endSample_channels (w : List Work) (s : State) :
    (State.endSample w s).channels = s.channels := rfl
@[simp] theorem State.endSample_nbuf (w : List Work) (s : State) :
    (State.endSample w s).nbuf = s.nbuf := rfl
@[simp] theorem State.endSample_nrec (w : List Work) (s : State) :
    (State.endSample w s).nrec = s.nrec := rfl
@[simp] theorem State.endSample_outBase (w : List Work) (s : State) :
    (State.endSample w s).outBase = s.outBase := rfl
@[simp] theorem State.endSample_opa (w : List Work) (s : State) : (State.endSample w s).opa = s.opa := rfl
@[simp] theorem State.endSample_opb (w : List Work) (s : State) : (State.endSample w s).opb = s.opb := rfl
@[simp] theorem State.endSample_opc (w : List Work) (s : State) : (State.endSample w s).opc = s.opc := rfl
@[simp] theorem State.endSample_res (w : List Work) (s : State) : (State.endSample w s).res = s.res := rfl
@[simp] theorem State.endSample_pos (w : List Work) (s : State) :
    (State.endSample w s).pos = BitVec.ofNat 32 (s.pos.toNat + s.bs) := rfl
@[simp] theorem State.endSample_slots (w : List Work) (s : State) :
    (State.endSample w s).slots = s.slots := rfl
@[simp] theorem State.endSample_work (w : List Work) (s : State) : (State.endSample w s).work = w := rfl
@[simp] theorem State.endSample_beat (w : List Work) (s : State) : (State.endSample w s).beat = 0 := rfl
@[simp] theorem State.endSample_held (w : List Work) (s : State) : (State.endSample w s).held = [] := rfl
@[simp] theorem State.endSample_mem (w : List Work) (s : State) : (State.endSample w s).mem = s.mem := rfl
@[simp] theorem State.endSample_inputs (w : List Work) (s : State) :
    (State.endSample w s).inputs = s.inputs := rfl
@[simp] theorem State.endSample_regData (w : List Work) (s : State) :
    (State.endSample w s).regData = s.regData := rfl
@[simp] theorem State.endSample_memData (w : List Work) (s : State) :
    (State.endSample w s).memData = s.memData := rfl
@[simp] theorem State.endSample_duties (w : List Work) (s : State) :
    (State.endSample w s).duties = s.duties := rfl
@[simp] theorem State.endSample_tainted (w : List Work) (s : State) :
    (State.endSample w s).tainted = s.tainted := rfl
@[simp] theorem State.endSample_draws (w : List Work) (s : State) :
    (State.endSample w s).draws = s.draws := rfl

/-! ## One byte of a sample written (20_memory R74) -/

@[simp] theorem State.endByte_cfg (rest : List Byte) (s : State) : (State.endByte rest s).cfg = s.cfg := rfl
@[simp] theorem State.endByte_done (rest : List Byte) (s : State) :
    (State.endByte rest s).done = s.done := rfl
@[simp] theorem State.endByte_err (rest : List Byte) (s : State) : (State.endByte rest s).err = s.err := rfl
@[simp] theorem State.endByte_dropped (rest : List Byte) (s : State) :
    (State.endByte rest s).dropped = s.dropped := rfl
@[simp] theorem State.endByte_errcode (rest : List Byte) (s : State) :
    (State.endByte rest s).errcode = s.errcode := rfl
@[simp] theorem State.endByte_errslot (rest : List Byte) (s : State) :
    (State.endByte rest s).errslot = s.errslot := rfl
@[simp] theorem State.endByte_irqEn (rest : List Byte) (s : State) :
    (State.endByte rest s).irqEn = s.irqEn := rfl
@[simp] theorem State.endByte_length (rest : List Byte) (s : State) :
    (State.endByte rest s).length = s.length := rfl
@[simp] theorem State.endByte_bitdepth (rest : List Byte) (s : State) :
    (State.endByte rest s).bitdepth = s.bitdepth := rfl
@[simp] theorem State.endByte_channels (rest : List Byte) (s : State) :
    (State.endByte rest s).channels = s.channels := rfl
@[simp] theorem State.endByte_nbuf (rest : List Byte) (s : State) :
    (State.endByte rest s).nbuf = s.nbuf := rfl
@[simp] theorem State.endByte_nrec (rest : List Byte) (s : State) :
    (State.endByte rest s).nrec = s.nrec := rfl
@[simp] theorem State.endByte_outBase (rest : List Byte) (s : State) :
    (State.endByte rest s).outBase = s.outBase := rfl
@[simp] theorem State.endByte_opa (rest : List Byte) (s : State) : (State.endByte rest s).opa = s.opa := rfl
@[simp] theorem State.endByte_opb (rest : List Byte) (s : State) : (State.endByte rest s).opb = s.opb := rfl
@[simp] theorem State.endByte_opc (rest : List Byte) (s : State) : (State.endByte rest s).opc = s.opc := rfl
@[simp] theorem State.endByte_res (rest : List Byte) (s : State) : (State.endByte rest s).res = s.res := rfl
@[simp] theorem State.endByte_pos (rest : List Byte) (s : State) : (State.endByte rest s).pos = s.pos := rfl
@[simp] theorem State.endByte_slots (rest : List Byte) (s : State) :
    (State.endByte rest s).slots = s.slots := rfl
@[simp] theorem State.endByte_phase (rest : List Byte) (s : State) :
    (State.endByte rest s).phase = s.phase := rfl
@[simp] theorem State.endByte_work (rest : List Byte) (s : State) :
    (State.endByte rest s).work = s.work := rfl
@[simp] theorem State.endByte_beat (rest : List Byte) (s : State) :
    (State.endByte rest s).beat = s.beat + 1 := rfl
@[simp] theorem State.endByte_held (rest : List Byte) (s : State) :
    (State.endByte rest s).held = rest := rfl
@[simp] theorem State.endByte_mem (rest : List Byte) (s : State) : (State.endByte rest s).mem = s.mem := rfl
@[simp] theorem State.endByte_inputs (rest : List Byte) (s : State) :
    (State.endByte rest s).inputs = s.inputs := rfl
@[simp] theorem State.endByte_regData (rest : List Byte) (s : State) :
    (State.endByte rest s).regData = s.regData := rfl
@[simp] theorem State.endByte_memData (rest : List Byte) (s : State) :
    (State.endByte rest s).memData = s.memData := rfl
@[simp] theorem State.endByte_duties (rest : List Byte) (s : State) :
    (State.endByte rest s).duties = s.duties := rfl
@[simp] theorem State.endByte_tainted (rest : List Byte) (s : State) :
    (State.endByte rest s).tainted = s.tainted := rfl
@[simp] theorem State.endByte_draws (rest : List Byte) (s : State) :
    (State.endByte rest s).draws = s.draws := rfl

/-! ## Derived quantities that an update leaves alone -/

@[simp] theorem State.accept_count (s : State) : s.accept.count = s.count := rfl
@[simp] theorem State.accept_bs (s : State) : s.accept.bs = s.bs := rfl
@[simp] theorem State.accept_ss (s : State) : s.accept.ss = s.ss := rfl
@[simp] theorem State.accept_len (s : State) : s.accept.len = s.len := rfl
@[simp] theorem State.accept_req (s : State) : s.accept.req = s.req := rfl
@[simp] theorem State.accept_outWindow (s : State) : s.accept.outWindow = s.outWindow := rfl
@[simp] theorem State.accept_busy (s : State) : s.accept.busy = s.busy := rfl
@[simp] theorem State.accept_slot (s : State) (j : Nat) : s.accept.slot j = s.slot j := rfl
@[simp] theorem State.complete_count (s : State) : s.complete.count = s.count := rfl
@[simp] theorem State.complete_bs (s : State) : s.complete.bs = s.bs := rfl
@[simp] theorem State.complete_ss (s : State) : s.complete.ss = s.ss := rfl
@[simp] theorem State.complete_len (s : State) : s.complete.len = s.len := rfl
@[simp] theorem State.complete_req (s : State) : s.complete.req = s.req := rfl
@[simp] theorem State.complete_outWindow (s : State) : s.complete.outWindow = s.outWindow := rfl
@[simp] theorem State.complete_busy (s : State) : s.complete.busy = s.busy := rfl
@[simp] theorem State.complete_slot (s : State) (j : Nat) : s.complete.slot j = s.slot j := rfl
@[simp] theorem State.raise_count (s : State) (c : ErrCode) (i : Nat) : (s.raise c i).count = s.count := rfl
@[simp] theorem State.raise_bs (s : State) (c : ErrCode) (i : Nat) : (s.raise c i).bs = s.bs := rfl
@[simp] theorem State.raise_ss (s : State) (c : ErrCode) (i : Nat) : (s.raise c i).ss = s.ss := rfl
@[simp] theorem State.raise_len (s : State) (c : ErrCode) (i : Nat) : (s.raise c i).len = s.len := rfl
@[simp] theorem State.raise_req (s : State) (c : ErrCode) (i : Nat) : (s.raise c i).req = s.req := rfl
@[simp] theorem State.raise_outWindow (s : State) (c : ErrCode) (i : Nat) :
    (s.raise c i).outWindow = s.outWindow := rfl
@[simp] theorem State.raise_busy (s : State) (c : ErrCode) (i : Nat) : (s.raise c i).busy = s.busy := rfl
@[simp] theorem State.raise_slot (s : State) (c : ErrCode) (i : Nat) (j : Nat) :
    (s.raise c i).slot j = s.slot j := rfl
@[simp] theorem State.drop_count (s : State) : s.drop.count = s.count := rfl
@[simp] theorem State.drop_bs (s : State) : s.drop.bs = s.bs := rfl
@[simp] theorem State.drop_ss (s : State) : s.drop.ss = s.ss := rfl
@[simp] theorem State.drop_len (s : State) : s.drop.len = s.len := rfl
@[simp] theorem State.drop_req (s : State) : s.drop.req = s.req := rfl
@[simp] theorem State.drop_outWindow (s : State) : s.drop.outWindow = s.outWindow := rfl
@[simp] theorem State.drop_busy (s : State) : s.drop.busy = s.busy := rfl
@[simp] theorem State.drop_slot (s : State) (j : Nat) : s.drop.slot j = s.slot j := rfl
@[simp] theorem State.setSlot_count (s : State) (i : Nat) (x : Slot) :
    (s.setSlot i x).count = s.count := rfl
@[simp] theorem State.setSlot_bs (s : State) (i : Nat) (x : Slot) : (s.setSlot i x).bs = s.bs := rfl
@[simp] theorem State.setSlot_ss (s : State) (i : Nat) (x : Slot) : (s.setSlot i x).ss = s.ss := rfl
@[simp] theorem State.setSlot_len (s : State) (i : Nat) (x : Slot) : (s.setSlot i x).len = s.len := rfl
@[simp] theorem State.setSlot_req (s : State) (i : Nat) (x : Slot) : (s.setSlot i x).req = s.req := rfl
@[simp] theorem State.setSlot_outWindow (s : State) (i : Nat) (x : Slot) :
    (s.setSlot i x).outWindow = s.outWindow := rfl
@[simp] theorem State.setSlot_busy (s : State) (i : Nat) (x : Slot) : (s.setSlot i x).busy = s.busy := rfl
@[simp] theorem State.clearStatus_count (s : State) (v : Word) : (s.clearStatus v).count = s.count := rfl
@[simp] theorem State.clearStatus_bs (s : State) (v : Word) : (s.clearStatus v).bs = s.bs := rfl
@[simp] theorem State.clearStatus_ss (s : State) (v : Word) : (s.clearStatus v).ss = s.ss := rfl
@[simp] theorem State.clearStatus_len (s : State) (v : Word) : (s.clearStatus v).len = s.len := rfl
@[simp] theorem State.clearStatus_req (s : State) (v : Word) : (s.clearStatus v).req = s.req := rfl
@[simp] theorem State.clearStatus_outWindow (s : State) (v : Word) :
    (s.clearStatus v).outWindow = s.outWindow := rfl
@[simp] theorem State.clearStatus_busy (s : State) (v : Word) : (s.clearStatus v).busy = s.busy := rfl
@[simp] theorem State.clearStatus_slot (s : State) (v : Word) (j : Nat) :
    (s.clearStatus v).slot j = s.slot j := rfl
@[simp] theorem State.havoc_count (s : State) (w : Window) : (s.havoc w).count = s.count := rfl
@[simp] theorem State.havoc_bs (s : State) (w : Window) : (s.havoc w).bs = s.bs := rfl
@[simp] theorem State.havoc_ss (s : State) (w : Window) : (s.havoc w).ss = s.ss := rfl
@[simp] theorem State.havoc_len (s : State) (w : Window) : (s.havoc w).len = s.len := rfl
@[simp] theorem State.havoc_req (s : State) (w : Window) : (s.havoc w).req = s.req := rfl
@[simp] theorem State.havoc_outWindow (s : State) (w : Window) : (s.havoc w).outWindow = s.outWindow := rfl
@[simp] theorem State.havoc_busy (s : State) (w : Window) : (s.havoc w).busy = s.busy := rfl
@[simp] theorem State.havoc_slot (s : State) (w : Window) (j : Nat) : (s.havoc w).slot j = s.slot j := rfl
@[simp] theorem State.acceptMix_count (s : State) : s.acceptMix.count = s.count := rfl
@[simp] theorem State.acceptMix_bs (s : State) : s.acceptMix.bs = s.bs := rfl
@[simp] theorem State.acceptMix_ss (s : State) : s.acceptMix.ss = s.ss := rfl
@[simp] theorem State.acceptMix_len (s : State) : s.acceptMix.len = s.len := rfl
@[simp] theorem State.acceptMix_req (s : State) : s.acceptMix.req = s.req := rfl
@[simp] theorem State.acceptMix_outWindow (s : State) : s.acceptMix.outWindow = s.outWindow := rfl
@[simp] theorem State.acceptMix_slot (s : State) (j : Nat) : s.acceptMix.slot j = s.slot j := rfl
@[simp] theorem State.advance_count (s : State) : s.advance.count = s.count := rfl
@[simp] theorem State.advance_bs (s : State) : s.advance.bs = s.bs := rfl
@[simp] theorem State.advance_ss (s : State) : s.advance.ss = s.ss := rfl
@[simp] theorem State.advance_len (s : State) : s.advance.len = s.len := rfl
@[simp] theorem State.advance_req (s : State) : s.advance.req = s.req := rfl
@[simp] theorem State.advance_outWindow (s : State) : s.advance.outWindow = s.outWindow := rfl
@[simp] theorem State.advance_slot (s : State) (j : Nat) : s.advance.slot j = s.slot j := rfl
@[simp] theorem State.finishRun_count (s : State) : s.finishRun.count = s.count := rfl
@[simp] theorem State.finishRun_bs (s : State) : s.finishRun.bs = s.bs := rfl
@[simp] theorem State.finishRun_ss (s : State) : s.finishRun.ss = s.ss := rfl
@[simp] theorem State.finishRun_len (s : State) : s.finishRun.len = s.len := rfl
@[simp] theorem State.finishRun_req (s : State) : s.finishRun.req = s.req := rfl
@[simp] theorem State.finishRun_outWindow (s : State) : s.finishRun.outWindow = s.outWindow := rfl

@[simp] theorem State.acceptMix_busy (s : State) : s.acceptMix.busy = true := rfl
@[simp] theorem State.finishRun_busy (s : State) : s.finishRun.busy = false := rfl
@[simp] theorem State.resetInput_busy (s : State) : s.resetInput.busy = false := rfl

end Sys2Proof.Machine
end

