-- ==== Sys2Proof/Laws/Ops.lean ====
section
/-! SUPPORT. What each shared operation can do, said once: the issue of a command, the stores of a run,
the run steps, the register port, the host's accesses, and a step of the machine. -/

namespace Sys2Proof.Machine

/-- BUSY is PHASE not IDLE (10_state R51). -/
theorem State.busy_iff (s : State) : s.busy = true ↔ s.phase ≠ .idle := by simp [State.busy]

/-- Not BUSY is PHASE IDLE. -/
theorem State.busy_eq_false_iff (s : State) : s.busy = false ↔ s.phase = .idle := by simp [State.busy]

/-- A command issued while idle is accepted and runs its rule (44_control R201). -/
theorem State.issue_idle {s : State} (h : s.phase = .idle) (rule : State → State) :
    s.issue rule = .next (rule s.accept) := by simp [State.issue, State.busy, h]

/-- A command issued while BUSY is dropped (44_control R202). -/
theorem State.issue_busy {s : State} (h : s.phase ≠ .idle) (rule : State → State) :
    s.issue rule = .next s.drop := by simp [State.issue, State.busy, h]

/-- All that an issued command can do. -/
theorem State.issue_next {s t : State} {rule : State → State} (h : s.issue rule = .next t) :
    (s.phase ≠ .idle ∧ t = s.drop) ∨ (s.phase = .idle ∧ t = rule s.accept) := by
  by_cases hp : s.phase = .idle
  · rw [State.issue_idle hp] at h; cases h; exact .inr ⟨hp, rfl⟩
  · rw [State.issue_busy hp] at h; cases h; exact .inl ⟨hp, rfl⟩

/-! ## Stores of a run -/

/-- Storing output bytes changes only DMEM and the count of draws. -/
theorem State.storeOutput_eq (s : State) (a : Nat) (bytes : List Byte) :
    s.storeOutput a bytes =
      { s with mem := (s.storeOutput a bytes).mem, draws := (s.storeOutput a bytes).draws } := by
  unfold State.storeOutput; split <;> rfl

/-- While the host keeps its duty, the bytes stored are the ones the rules give. -/
theorem State.storeOutput_clean {s : State} (h : s.tainted = false) (a : Nat) (bytes : List Byte) :
    s.storeOutput a bytes = { s with mem := Memory.writeBytes s.mem a bytes } := by
  simp [State.storeOutput, h]

/-- Whatever bytes are stored, they are as many, and no other byte of DMEM changes. -/
theorem State.storeOutput_mem (s : State) (a : Nat) (bytes : List Byte) :
    ∃ bs : List Byte, bs.length = bytes.length ∧
      (s.storeOutput a bytes).mem = Memory.writeBytes s.mem a bs := by
  by_cases h : s.tainted = true
  · exact ⟨s.freeBytes bytes.length, by simp [State.freeBytes], by simp [State.storeOutput, h]⟩
  · exact ⟨bytes, rfl, by simp [State.storeOutput, h]⟩

/-- A run's store goes on exactly when its bytes lie inside DMEM. -/
theorem State.runStore_next {s t : State} {bytes : List Byte} {k : State → State}
    (h : s.runStore bytes k = .next t) :
    s.inDmem s.outAddr bytes.length = true ∧ t = k (s.storeOutput s.outAddr bytes) := by
  unfold State.runStore at h
  split at h
  · next hd => cases h; exact ⟨hd, rfl⟩
  · cases h

/-- The bytes a sample step still has to write: computed before its first byte, held after (20_memory
R74). -/
theorem State.runLoad_next {s t : State} {k : List Byte → Host.Outcome State Fault Refusal}
    (h : s.runLoad k = .next t) :
    (s.beat = 0 ∧ s.readOutside = none ∧ k s.sampleBytes = .next t) ∨ (s.beat ≠ 0 ∧ k s.held = .next t) := by
  unfold State.runLoad at h
  split at h
  · next hb =>
    split at h
    · cases h
    · next hd => exact .inl ⟨hb, hd, h⟩
  · next hb => exact .inr ⟨hb, h⟩

/-- After a breach, a run's store writes free bytes and counts them (70 R266). -/
theorem State.storeOutput_tainted {s : State} (h : s.tainted = true) (a : Nat) (bytes : List Byte) :
    s.storeOutput a bytes =
      { s with
        mem := Memory.writeBytes s.mem a (s.freeBytes bytes.length)
        draws := s.draws + bytes.length } := by
  simp [State.storeOutput, h]

@[simp] theorem State.length_freeBytes (s : State) (n : Nat) : (s.freeBytes n).length = n := by
  simp [State.freeBytes]

/-- Free bytes written to DMEM read as the draws they are. -/
theorem State.read_freeBytes {s : State} {m : Memory} (hm : Memory.wf m = true) {a n k : Nat} (hk : k < n) :
    Memory.read (Memory.writeBytes m a (s.freeBytes n)) (a + k) = Config.freeByte (s.draws + k) := by
  rw [Memory.read_writeBytes_inside hm (by simpa using hk)]
  simp [State.freeBytes]

/-! ## Run steps -/

/-- All that a sample step can do (43_mixer R172 to R174): it stores the sample, read and computed now, or
what is held of it. -/
theorem State.sampleStep_next {s t : State} (h : s.sampleStep = .next t) :
    ∃ bytes, ((s.beat = 0 ∧ s.readOutside = none ∧ bytes = s.sampleBytes) ∨ (s.beat ≠ 0 ∧ bytes = s.held)) ∧
      s.inDmem s.outAddr bytes.length = true ∧
      t = State.endSample s.crossfadePhase (s.storeOutput s.outAddr bytes) := by
  obtain ⟨hb, hl, hs⟩ | ⟨hb, hs⟩ := State.runLoad_next h
  · obtain ⟨hd, rfl⟩ := State.runStore_next hs
    exact ⟨_, .inl ⟨hb, hl, rfl⟩, hd, rfl⟩
  · obtain ⟨hd, rfl⟩ := State.runStore_next hs
    exact ⟨_, .inr ⟨hb, rfl⟩, hd, rfl⟩

/-- All that one byte of a sample's write can do (20_memory R70, R74). -/
theorem State.sampleByte_next {s t : State} (h : s.sampleByte = .next t) :
    (s.beat + 1 < s.bs ∧
        ∃ bytes,
          ((s.beat = 0 ∧ s.readOutside = none ∧ bytes = s.sampleBytes) ∨ (s.beat ≠ 0 ∧ bytes = s.held)) ∧
            s.inDmem s.outAddr (bytes.take 1).length = true ∧
            t = State.endByte (bytes.drop 1) (s.storeOutput s.outAddr (bytes.take 1))) ∨
      (¬ s.beat + 1 < s.bs ∧ s.sampleStep = .next t) := by
  unfold State.sampleByte at h
  split at h
  · next hn =>
    refine .inl ⟨hn, ?_⟩
    obtain ⟨hb, hl, hs⟩ | ⟨hb, hs⟩ := State.runLoad_next h
    · obtain ⟨hd, rfl⟩ := State.runStore_next hs
      exact ⟨_, .inl ⟨hb, hl, rfl⟩, hd, rfl⟩
    · obtain ⟨hd, rfl⟩ := State.runStore_next hs
      exact ⟨_, .inr ⟨hb, rfl⟩, hd, rfl⟩
  · next hn => exact .inr ⟨hn, h⟩

/-- All that a tail write can do (43_mixer R176). -/
theorem State.tailStep_next {s t : State} (h : s.tailStep = .next t) :
    s.inDmem s.outAddr 1 = true ∧
      t = { s.storeOutput s.outAddr [0x00] with beat := s.beat + 1 }.advance := by
  obtain ⟨hd, rfl⟩ := State.runStore_next h
  refine ⟨hd, ?_⟩
  rw [State.storeOutput_eq]

/-- All that a run step can do. -/
theorem State.runStep_next {s t : State} (h : s.runStep = .next t) :
    (s.nextPhase = .idle ∧ t = s) ∨ (s.nextPhase = .sample ∧ s.advance.sampleStep = .next t) ∨
      (s.nextPhase = .tail ∧ s.advance.tailStep = .next t) ∨
      (s.nextPhase = .finish ∧ t = s.finishRun) := by
  unfold State.runStep at h
  split at h
  · next hp => cases h; exact .inl ⟨hp, rfl⟩
  · next hp => exact .inr (.inl ⟨hp, h⟩)
  · next hp => exact .inr (.inr (.inl ⟨hp, h⟩))
  · next hp => cases h; exact .inr (.inr (.inr ⟨hp, rfl⟩))

/-- All that the sequencer's single byte can do. -/
theorem State.runByte_next {s t : State} (h : s.runByte = .next t) :
    (s.nextPhase = .sample ∧ s.advance.sampleByte = .next t) ∨
      (s.nextPhase ≠ .sample ∧ s.runStep = .next t) := by
  unfold State.runByte at h
  split at h
  · next hp => exact .inl ⟨hp, h⟩
  · next hp => exact .inr ⟨by simp [hp], h⟩
  · next hp => exact .inr ⟨by simp [hp], h⟩
  · next hp => exact .inr ⟨by simp [hp], h⟩

/-- When PHASE is IDLE nothing moves (60_exceptions R250). -/
theorem State.runStep_idle {s : State} (h : s.phase = .idle) : s.runStep = .next s := by
  simp [State.runStep, State.nextPhase, h]

/-! ## The register port -/

/-- A register read returns a value, may end the host's duties, and does nothing else (44_control
R206). -/
theorem State.readReg_eq (s : State) (word : BitVec 9) :
    s.readReg word =
      { s with regData := (s.readReg word).regData, duties := (s.readReg word).duties } := by
  unfold State.readReg State.endDuties
  repeat' split
  all_goals rfl

/-- All that a register write can do (10_state R20 to R39). -/
theorem State.writeReg_next {s t : State} {word : BitVec 9} {v : Word} (h : s.writeReg word v = .next t) :
    (regAt s.cfg word = none ∧ t = s) ∨
      (regAt s.cfg word = some .cmd ∧ s.writeCmd v = .next t) ∨
      (regAt s.cfg word = some .status ∧ t = s.clearStatus v) ∨
      (regAt s.cfg word = some .irqEn ∧ t = { s with irqEn := v.getLsbD 0 }) ∨
      ∃ r, regAt s.cfg word = some r ∧ r ≠ .cmd ∧ r ≠ .status ∧ r ≠ .irqEn ∧
        ((s.phase ≠ .idle ∧ t = s) ∨ (s.phase = .idle ∧ t = s.putReg r v)) := by
  unfold State.writeReg at h
  split at h
  · next hr => cases h; exact .inl ⟨hr, rfl⟩
  · next hr => exact .inr (.inl ⟨hr, h⟩)
  · next hr => cases h; exact .inr (.inr (.inl ⟨hr, rfl⟩))
  · next hr => cases h; exact .inr (.inr (.inr (.inl ⟨hr, rfl⟩)))
  · next r h1 h2 h3 hr =>
    refine .inr (.inr (.inr (.inr ⟨r, hr, h1, h2, h3, ?_⟩)))
    split at h
    · next hb => cases h; exact .inl ⟨(State.busy_iff s).mp hb, rfl⟩
    · next hb =>
      cases h
      exact .inr ⟨(State.busy_eq_false_iff s).mp (Bool.eq_false_iff.mpr hb), rfl⟩

/-- All that a CMD write can do (44_control R200 to R202, 30_encoding R83). -/
theorem State.writeCmd_next {s t : State} {v : Word} (h : s.writeCmd v = .next t) :
    (s.phase ≠ .idle ∧ t = s.drop) ∨
      (s.phase = .idle ∧ ∃ i, decode v = .command i ∧ exec i s = .next t) ∨
      (s.phase = .idle ∧ ∃ e, decode v = .illegal e ∧ t = s.accept.raise .illegalCmd 0) := by
  unfold State.writeCmd at h
  split at h
  · next hb => cases h; exact .inl ⟨(State.busy_iff s).mp hb, rfl⟩
  · next hb =>
    have hp := (State.busy_eq_false_iff s).mp (Bool.eq_false_iff.mpr hb)
    split at h
    · next i hi => exact .inr (.inl ⟨hp, i, hi, h⟩)
    · next e he => cases h; exact .inr (.inr ⟨hp, e, he, rfl⟩)

/-! ## The host's DMEM accesses -/

/-- Free bytes in a window change only DMEM and the count of draws. -/
theorem State.breach_eq (w : Window) (s : State) (d : Duty) :
    State.breach w s d =
      { s with mem := (State.breach w s d).mem, draws := (State.breach w s d).draws } := by
  unfold State.breach; split <;> rfl

/-- A breach keeps the canonical form of DMEM. -/
theorem State.breach_wf {w : Window} {s : State} {d : Duty} (h : Memory.wf s.mem = true) :
    Memory.wf (State.breach w s d).mem = true := by
  unfold State.breach
  split
  · exact Memory.wf_writeBytes h _ _
  · exact h

/-- However many duties are broken, only DMEM and the count of draws change. -/
theorem State.breaches_eq (w : Window) (s : State) (ds : List Duty) :
    ds.foldl (State.breach w) s =
      { s with
        mem := (ds.foldl (State.breach w) s).mem, draws := (ds.foldl (State.breach w) s).draws } := by
  induction ds generalizing s with
  | nil => rfl
  | cons d ds ih =>
    simp only [List.foldl_cons]
    rw [ih, State.breach_eq]

/-- A host write that breaks no duty only writes its bytes. -/
theorem State.breaches_none {w : Window} {s : State} {ds : List Duty}
    (h : ∀ d ∈ ds, d.broken w = false) : ds.foldl (State.breach w) s = s := by
  induction ds with
  | nil => rfl
  | cons d ds ih =>
    simp only [List.foldl_cons]
    rw [show State.breach w s d = s by simp [State.breach, h d List.mem_cons_self]]
    exact ih fun e he => h e (List.mem_cons_of_mem d he)

/-- A host's bytes stored change only DMEM and the model's record of the breach (70 R266). -/
theorem State.hostStore_eq (s : State) (a : Nat) (bytes : List Byte) :
    s.hostStore a bytes =
      { s with
        mem := (s.hostStore a bytes).mem, draws := (s.hostStore a bytes).draws
        tainted := s.tainted || s.breaksRun ⟨a, bytes.length⟩ } := by
  unfold State.hostStore
  rw [State.breaches_eq]

/-- Inside DMEM every address exists (20_memory R60). -/
theorem State.existing_inside {s : State} {a n : Nat} (h : a + n ≤ s.cfg.memSize) : s.existing a n = n := by
  unfold State.existing; omega

/-- A host write inside DMEM stores all its bytes. -/
theorem State.hostWrite_inside {s : State} {a : Nat} {bytes : List Byte}
    (h : a + bytes.length ≤ s.cfg.memSize) : s.hostWrite a bytes = s.hostStore a bytes := by
  rw [State.hostWrite, State.existing_inside h, List.take_length]

/-- A host read inside DMEM draws no free byte. -/
theorem State.hostRead_inside {s : State} {a n : Nat} (h : a + n ≤ s.cfg.memSize) :
    s.hostRead a n = { s with memData := Memory.readBytes s.mem a n } := by
  simp [State.hostRead, State.existing_inside h, State.freeBytes]

/-! ## A step -/

/-- With nothing listed, the sequencer moves (70 R277). -/
theorem step_empty {s : State} (h : s.inputs = []) : step s = s.runStep := by
  simp [step, State.proceed, h]

/-- With an event listed, it happens. -/
theorem step_event {s : State} {e : Event} {rest : List Event} (h : s.inputs = e :: rest) :
    step s = { s with inputs := rest }.perform e := by simp [step, State.proceed, h]

/-- An event put back. -/
theorem State.again_next {e : Event} {o : Host.Outcome State Fault Refusal} {t : State}
    (h : State.again e o = .next t) : ∃ u, o = .next u ∧ t = { u with inputs := e :: u.inputs } := by
  cases o with
  | next u => cases h; exact ⟨u, rfl, rfl⟩
  | fault r => cases h
  | refused r => cases h

/-- All that a WAIT can do (30_encoding R90). -/
theorem State.poll_next {s t : State} (h : s.poll = .next t) :
    (s.phase ≠ .idle ∧ ∃ u, (s.readReg statusPort).runStep = .next u ∧
        t = { u with inputs := .wait :: u.inputs }) ∨
      (s.phase = .idle ∧ t = s.readReg statusPort) := by
  unfold State.poll at h
  split at h
  · next hb => exact .inl ⟨(State.busy_iff s).mp hb, State.again_next h⟩
  · next hb =>
    cases h
    exact .inr ⟨(State.busy_eq_false_iff s).mp (Bool.eq_false_iff.mpr hb), rfl⟩

end Sys2Proof.Machine
end

