-- ==== Sys2Proof/Laws/PerInstr.lean ====
section
/-! SUPPORT. The family of facts made per command: what each command's word holds in each field
(30_encoding R80, R81). -/

namespace Sys2Proof.Laws.EncodedFields

/-- The word of a well-formed command holds its opcode, its operands in their fields, and 0 in every
reserved and unused field (30_encoding R81). -/
def Statement (i : Instr) : Prop :=
  i.WellFormed →
    wordOp (encode i) = i.opcode ∧ wordW (encode i) = i.fieldW ∧ wordIdx (encode i) = i.fieldIdx ∧
      wordRsv (encode i) = 0

/-- The fields of four concatenated parts. -/
theorem fields (o w x : Nat) (ho : o < 2 ^ 8) (hw : w < 2 ^ 8) (hx : x < 2 ^ 16) :
    let v : Word := BitVec.ofNat 32 0 ++ BitVec.ofNat 16 x ++ BitVec.ofNat 8 w ++ BitVec.ofNat 8 o
    wordOp v = o ∧ wordW v = w ∧ wordIdx v = x ∧ wordRsv v = 0 := by
  have hv : (BitVec.ofNat 32 0 ++ BitVec.ofNat 16 x ++ BitVec.ofNat 8 w ++ BitVec.ofNat 8 o :
      BitVec 64).toNat = x * 2 ^ 16 + w * 2 ^ 8 + o := by
    simp only [BitVec.toNat_append, BitVec.toNat_ofNat]
    rw [Nat.mod_eq_of_lt ho, Nat.mod_eq_of_lt hw, Nat.mod_eq_of_lt hx]
    rw [← Nat.shiftLeft_add_eq_or_of_lt ho, ← Nat.shiftLeft_add_eq_or_of_lt hw,
      ← Nat.shiftLeft_add_eq_or_of_lt hx]
    simp only [Nat.shiftLeft_eq]
    omega
  simp only [wordOp, wordW, wordIdx, wordRsv, BitVec.extractLsb'_toNat, hv, Nat.shiftRight_eq_div_pow]
  refine ⟨?_, ?_, ?_, ?_⟩ <;> omega

theorem nop : Statement .nop := fun _ => fields 0x00 0 0 (by decide) (by decide) (by decide)

theorem mix : Statement .mix := fun _ => fields 0x01 0 0 (by decide) (by decide) (by decide)

theorem dec (w : Nat) : Statement (.dec w) := fun h =>
  fields 0x10 w 0 (by decide) (of_decide_eq_true h) (by decide)

theorem enc (w : Nat) : Statement (.enc w) := fun h =>
  fields 0x11 w 0 (by decide) (of_decide_eq_true h) (by decide)

theorem ease : Statement .ease := fun _ => fields 0x20 0 0 (by decide) (by decide) (by decide)

theorem lutrd (idx : Nat) : Statement (.lutrd idx) := fun h =>
  fields 0x21 0 idx (by decide) (by decide) (of_decide_eq_true h)

theorem mix2 : Statement .mix2 := fun _ => fields 0x30 0 0 (by decide) (by decide) (by decide)

theorem xstep (idx : Nat) : Statement (.xstep idx) := fun h =>
  fields 0x40 0 idx (by decide) (by decide) (of_decide_eq_true h)

end Sys2Proof.Laws.EncodedFields
end

