-- ==== Sys2Proof/Tests/Slice0.lean ====
section
/-! SUPPORT. Tests of the model: the expected values are those of 95_test_vectors or are worked out from the
rule each docstring cites. After them, for each statement of Certificates/Slice0 with hypotheses, a witness: a
concrete state and operands that meet them all. -/

namespace Sys2Proof.Tests

open Sys2Proof.Machine

-- One theorem at a time: the kernel evaluations of many at once would start more threads than fit.
set_option Elab.async false

/-! ## Helpers -/

/-- The state of an outcome; the reset state if there is none. -/
def stateOf : Host.Outcome State Fault Refusal → State
  | .next t => t
  | .fault _ => State.reset
  | .refused _ => State.reset

/-- The outcome is a next state with the property. -/
def nextHas (o : Host.Outcome State Fault Refusal) (p : State → Bool) : Bool :=
  match o with
  | .next t => p t
  | .fault _ => false
  | .refused _ => false

/-- A next state with a property, found by evaluation. -/
theorem exists_next {o : Host.Outcome State Fault Refusal} {p : State → Bool} (h : nextHas o p = true) :
    ∃ t, o = .next t ∧ p t = true := by
  cases o with
  | next t => exact ⟨t, rfl, h⟩
  | fault r => cases h
  | refused r => cases h

/-- A small machine: three slots, 64 bytes of DMEM, five table entries. -/
def smallCfg : Config := { maxSources := 3, memSize := 64, support24 := false, tableSize := 5 }

/-- The small machine after reset. -/
def idle : State := State.powerOn smallCfg

/-- The small machine about to mix one 16-bit source at volume 1.0 with no transition: two samples, 0x4000 and
0x8000, and one tail byte, from address 8 to address 0. -/
def ready : State :=
  { idle with
    length := 5, bitdepth := 16, channels := 1, nbuf := 1, nrec := 1
    slots := idle.slots.set 0 { Slot.reset with volume := 0x3FF0000000000000, bufBase := 8, bufLen := 4 }
    mem := [(4, 0xAA), (9, 0x40), (11, 0x80)] }

/-- The small machine k steps after its MIX was accepted. -/
def during (k : Nat) : State := stateOf (Host.Core.run Sys2Proof.core k (stateOf (exec .mix ready)))

/-- The same run with an event about to happen. -/
def duringWith (k : Nat) (e : Event) : State := { during k with inputs := [e] }

/-- The small machine with a slot in the middle of a transition from 0.0 to 1.0, 2 of 4 frames in. -/
def fading : State :=
  { idle with
    slots := idle.slots.set 2 { Slot.reset with tlen := 4, tcur := 2, tto := 0x3FF0000000000000 } }

/-! ## Encoding (30_encoding R80 to R89) -/

/-- Operands that do not fit their fields (R80). -/
theorem test_illFormed_refused :
    (Instr.dec 256).wellFormed = false ∧ (Instr.enc 256).wellFormed = false ∧
      (Instr.lutrd 65536).wellFormed = false ∧ (Instr.xstep 65536).wellFormed = false := by decide

/-- Every command's word, written as RSV, IDX, W and OP from R80 to R82. -/
theorem test_words_decode :
    decode (0x00000000#32 ++ 0x0000#16 ++ 0x00#8 ++ 0x00#8) = .command .nop ∧
      decode (0x00000000#32 ++ 0x0000#16 ++ 0x00#8 ++ 0x01#8) = .command .mix ∧
      decode (0x00000000#32 ++ 0x0000#16 ++ 0x04#8 ++ 0x10#8) = .command (.dec 4) ∧
      decode (0x00000000#32 ++ 0x0000#16 ++ 0xFF#8 ++ 0x11#8) = .command (.enc 255) ∧
      decode (0x00000000#32 ++ 0x0000#16 ++ 0x00#8 ++ 0x20#8) = .command .ease ∧
      decode (0x00000000#32 ++ 0x0F9F#16 ++ 0x00#8 ++ 0x21#8) = .command (.lutrd 3999) ∧
      decode (0x00000000#32 ++ 0x0000#16 ++ 0x00#8 ++ 0x30#8) = .command .mix2 ∧
      decode (0x00000000#32 ++ 0x8001#16 ++ 0x00#8 ++ 0x40#8) = .command (.xstep 0x8001) := by
  decide +kernel

/-- A reserved opcode, a reserved bit, and a field that the format does not use (95 2.1, 2.9). -/
theorem test_bad_words_refused :
    decode 0x02 = .illegal .reservedOpcode ∧ decode 0xFF = .illegal .reservedOpcode ∧
      decode 0x100000000 = .illegal .reservedBits ∧ decode 0x8000000000000210 = .illegal .reservedBits ∧
      decode 0x01000001 = .illegal .unusedField ∧ decode 0x00010210 = .illegal .unusedField ∧
      decode 0x00000121 = .illegal .unusedField ∧ decode 0x00000100 = .illegal .unusedField := by
  decide +kernel

/-- A row of the opcode table, and a step on it right after reset: LUTRD 0 completes. -/
theorem test_table_word :
    decodeTableWord 32 0x00000021 = some (.lutrd 0) ∧ decodeTableWord 64 0x100000021 = none ∧
      nextHas (step (State.reset.withFetchWord 64 0x21)) (fun t => t.statusWord == 0x2) = true := by
  decide +kernel

/-! ## One step of each command (95_test_vectors) -/

/-- 95 2.9: 0x504 becomes 0x2. -/
theorem test_nop_clears_error :
    nextHas (exec .nop { idle with err := true, errcode := 5 }) (fun t => t.statusWord == 0x2) = true := by
  decide +kernel

/-- 95 2.9: DROPPED is kept. -/
theorem test_nop_keeps_dropped :
    nextHas (exec .nop { idle with done := true, dropped := true }) (fun t => t.statusWord == 0xA) = true := by
  decide +kernel

/-- 95 2.1: the most negative 16-bit code, with bits above the sample that are ignored. -/
theorem test_dec_most_negative :
    nextHas (exec (.dec 2) { idle with opa := 0xFFFFFFFFFFFF8000 })
      (fun t => t.res == 0xBFF0002000400080) = true := by decide +kernel

/-- 95 2.1: width 3 without SUPPORT_24. -/
theorem test_dec_three_refused :
    nextHas (exec (.dec 3) { idle with res := 7 })
      (fun t => t.statusWord == 0x0504 && t.res == 7) = true := by decide +kernel

/-- 95 2.2: 0.49999 and -1/127 at width 4 and 1, truncated toward zero. -/
theorem test_enc_truncates :
    nextHas (exec (.enc 4) { idle with opa := 0x3FDFFFD60E94EE39 }) (fun t => t.res == 0x3FFFAC1C) = true ∧
      nextHas (exec (.enc 1) { idle with opa := 0xBFE0000000000000 }) (fun t => t.res == 0xC1) = true := by
  decide +kernel

/-- 95 2.2: a NaN gives 0, and -infinity the least code. -/
theorem test_enc_special :
    nextHas (exec (.enc 2) { idle with opa := 0xFFF0000000000001 }) (fun t => t.res == 0) = true ∧
      nextHas (exec (.enc 2) { idle with opa := 0xFFF0000000000000 }) (fun t => t.res == 0x8001) = true := by
  decide +kernel

/-- 95 2.5: from 1.0 to 0.25 at 0.75, with the table of 4000 entries. -/
theorem test_ease_down :
    nextHas
      (exec .ease
        { State.reset with
          opa := 0x3FE8000000000000, opb := 0x3FF0000000000000, opc := 0x3FD0000000000000 })
      (fun t => t.res == 0x3FE5E0A5EA6828B5) = true := by decide +kernel

/-- 95 2.5: from 0.7 to 0.1 at 1.0 is not 0.1. -/
theorem test_ease_end :
    nextHas
      (exec .ease
        { State.reset with
          opa := 0x3FF0000000000000, opb := 0x3FE6666666666666, opc := 0x3FB999999999999A })
      (fun t => t.res == 0x3FB9999999999998) = true := by decide +kernel

/-- 95 2.4: an entry in the middle. -/
theorem test_lutrd_middle :
    nextHas (exec (.lutrd 2666) State.reset) (fun t => t.res == 0x3FD2F684BDA12F68) = true := by
  decide +kernel

/-- 95 2.4: the last index, and the first that is no index. -/
theorem test_lutrd_bound :
    nextHas (exec (.lutrd 3999) State.reset) (fun t => t.res == 0x3FF0000000000000) = true ∧
      nextHas (exec (.lutrd 4000) State.reset) (fun t => t.statusWord == 0x0104) = true := by
  decide +kernel

/-- 95 2.6: -0.6 and 0.2. -/
theorem test_mix2_rounds :
    nextHas (exec .mix2 { idle with opa := 0xBFE3333333333333, opb := 0x3FC999999999999A })
      (fun t => t.res == 0xBFD6872B020C49BA) = true := by decide +kernel

/-- 95 2.6: -1.0 twice is -0.0. -/
theorem test_mix2_negative_zero :
    nextHas (exec .mix2 { idle with opa := 0xBFF0000000000000, opb := 0xBFF0000000000000 })
      (fun t => t.res == 0x8000000000000000) = true := by decide +kernel

/-- 95 2.8, V-XS-3 step 1: from 1.0 to 0.0 over 4 frames. -/
theorem test_xstep_eases :
    nextHas
      (exec (.xstep 1)
        { State.reset with
          slots := State.reset.slots.set 1
            { Slot.reset with volume := 0x3FF0000000000000, tlen := 4, tfrom := 0x3FF0000000000000 } })
      (fun t =>
        decide ((t.slot 1).record = { vol := 0x3FEF8049B0EDAF5C, tlen := 4, tcur := 1 })) = true := by
  decide +kernel

/-- 95 2.8, V-XS-6: progress 0/0, then the end of the transition. -/
theorem test_xstep_ends :
    nextHas
      (exec (.xstep 1)
        { State.reset with
          slots := State.reset.slots.set 1
            { Slot.reset with tlen := 0, tcur := 0xFFFFFFFFFFFFFFFF, tto := 0x3FECCCCCCCCCCCCD } })
      (fun t =>
        decide ((t.slot 1).record =
          { vol := 0x3FECCCCCCCCCCCCD, tlen := 0xFFFFFFFFFFFFFFFF, tcur := 0 })) = true := by
  decide +kernel

/-- 43_mixer R170: an accepted MIX is BUSY with nothing reported. -/
theorem test_mix_accepted :
    nextHas (exec .mix { ready with done := true, pos := 9 })
      (fun t => t.statusWord == 0x1 && t.pos == 0) = true := by decide +kernel

/-- 43_mixer R167 to R169: with windows that overlap by one byte, slot 0 is reported. -/
theorem test_mix_overlap :
    nextHas (exec .mix { ready with outBase := 11 }) (fun t => t.statusWord == 0x0A04) = true ∧
      nextHas (exec .mix { ready with outBase := 12 }) (fun t => t.statusWord == 0x1) = true := by
  decide +kernel

/-- 43_mixer R174: the first sample step of `ready` writes 0x4000 through (95 2.10, V-MIX-1). -/
theorem test_run_first_sample :
    nextHas (step (during 0)) (fun t => decide (Memory.readBytes t.mem 0 2 = [0x00, 0x40]) && t.pos == 2) = true := by
  decide +kernel

/-- 43_mixer R176: its tail write clears the byte at address 4. -/
theorem test_run_tail :
    nextHas (step (during 2))
      (fun t => decide (Memory.readBytes t.mem 0 5 = [0x00, 0x40, 0x01, 0x80, 0x00])) = true := by
  decide +kernel

/-- 20_memory R74: the second byte of a sample comes from the one read before its first byte, whatever the
source holds by then. -/
theorem test_run_reads_once :
    nextHas (during 0).runByte
      (fun t =>
        nextHas { t with mem := Memory.write t.mem 9 0x77 }.runByte
          (fun u => decide (Memory.readBytes u.mem 0 2 = [0x00, 0x40]) && u.pos == 2)) = true := by
  decide +kernel

/-- 70_reset_and_hazards R277: a host access past DMEM leaves the run going. -/
theorem test_host_past_dmem :
    nextHas (step (duringWith 1 (.memWrite 63 [0x11, 0x22])))
      (fun t => t.busy && Memory.read t.mem 63 == 0x11 && Memory.read t.mem 64 == 0x00) = true := by
  decide +kernel

/-! ## Witnesses: the command word and the commands -/

theorem witness_DecodeOfEncode : (Instr.lutrd 65535).WellFormed ∧ (Instr.dec 255).WellFormed := by decide

theorem witness_EncodeOfDecode : decode 0xFFFF0040 = .command (.xstep 0xFFFF) := by decide +kernel

theorem witness_IllegalWordsAreRejected :
    idle.phase = .idle ∧ ¬SpellsCommand 0x02 ∧ ¬SpellsCommand 0x100000000 ∧ ¬SpellsCommand 0x110000 ∧
      ¬SpellsCommand 0x100 ∧ ¬SpellsCommand 0x121 ∧ SpellsCommand 0xFFFF0021 := by
  refine ⟨?_, ?_, ?_, ?_, ?_, ?_, ?_⟩ <;> decide +kernel

theorem witness_StepRunsTheDecodedCommand :
    ({ idle with inputs := [.reg (.write (portOf 0x008) 0x30)] } : State).inputs =
        .reg (.write (portOf 0x008) 0x30) :: [] ∧
      decode 0x30 = .command .mix2 ∧ Instr.mix2.WellFormed := by decide +kernel

theorem witness_NopOnlyUpdatesStatus :
    idle.phase = .idle ∧ (during 1).phase ≠ .idle ∧ (0x00 : Word).toNat % 2 ^ 8 = 0x00 ∧
      (0xFF00 : Word).toNat % 2 ^ 8 = 0x00 ∧
      ({ idle with err := true, errcode := 5 } : State).statusWord = 0x504 := by decide +kernel

theorem witness_DecDecodesOneSample :
    idle.phase = .idle ∧ idle.cfg.AcceptsWidth 1 ∧ idle.cfg.AcceptsWidth 4 ∧ ¬idle.cfg.AcceptsWidth 0 ∧
      ¬idle.cfg.AcceptsWidth 3 ∧ State.reset.cfg.AcceptsWidth 3 ∧ (during 1).phase ≠ .idle ∧
      (0xFF10 : Word).toNat % 2 ^ 8 = 0x10 ∧ (0x10210 : Word).toNat % 2 ^ 8 = 0x10 := by decide +kernel

theorem witness_EncEncodesOneValue :
    idle.phase = .idle ∧ idle.cfg.AcceptsWidth 2 ∧ ¬idle.cfg.AcceptsWidth 5 ∧ (during 1).phase ≠ .idle ∧
      (0xFF11 : Word).toNat % 2 ^ 8 = 0x11 ∧
      fIsNaN ({ idle with opa := 0xFFF0000000000001 } : State).opa = true := by decide +kernel

theorem witness_EaseInterpolates :
    idle.phase = .idle ∧ (during 1).phase ≠ .idle ∧ (0x20 : Word).toNat % 2 ^ 8 = 0x20 ∧
      (0x120 : Word).toNat % 2 ^ 8 = 0x20 := by decide +kernel

theorem witness_LutrdReadsTheTable :
    idle.phase = .idle ∧ 4 < idle.cfg.tableSize ∧ idle.cfg.tableSize ≤ 5 ∧ (during 1).phase ≠ .idle ∧
      (0xFFFF0021 : Word).toNat % 2 ^ 8 = 0x21 ∧ idle.cfg.Legal := by decide +kernel

theorem witness_Mix2MixesTwoValues :
    idle.phase = .idle ∧ (during 1).phase ≠ .idle ∧ (0x130 : Word).toNat % 2 ^ 8 = 0x30 ∧
      fIsNaN ({ idle with opb := 0x7FF0000000000001 } : State).opb = true := by decide +kernel

theorem witness_XstepStepsOneSlot :
    fading.phase = .idle ∧ 2 < fading.cfg.maxSources ∧
      fading.slots[2]? =
        some { Slot.reset with tlen := 4, tcur := 2, tto := 0x3FF0000000000000 } ∧
      (0 : Int) ≤ (4 : Word).toInt ∧ fading.slots[0]? = some Slot.reset ∧ Slot.reset.tlen.toInt < 0 ∧
      fading.cfg.maxSources ≤ 3 ∧ (during 1).phase ≠ .idle ∧ (0x30140 : Word).toNat % 2 ^ 8 = 0x40 := by
  decide +kernel

theorem witness_AcceptedMixStartsARun :
    ready.phase = .idle ∧ ready.AcceptsMix ∧ (during 1).phase ≠ .idle ∧
      (0x01000001 : Word).toNat % 2 ^ 8 = 0x01 := by decide +kernel

/-- Checks 1 to 6 of 43_mixer R167 in turn, each the first that fails. -/
theorem witness_MixReports_format :
    ready.phase = .idle ∧ ({ ready with nrec := 2 } : State).nbuf ≠ ({ ready with nrec := 2 } : State).nrec ∧
      ({ ready with nbuf := 4, nrec := 4 } : State).cfg.maxSources < (4 : BitVec 32).toNat ∧
      (12 : BitVec 32).toNat % 8 ≠ 0 ∧ (24 : BitVec 32).toNat % 8 = 0 ∧
      ¬ready.cfg.AcceptsWidth ((24 : BitVec 32).toNat / 8) ∧
      ready.cfg.AcceptsWidth (ready.bitdepth.toNat / 8) ∧ ({ ready with channels := 0 } : State).channels = 0 ∧
      0 < ready.length.toNat ∧
      ({ ready with outBase := 60 } : State).cfg.memSize <
        ({ ready with outBase := 60 } : State).outBase.toNat + ready.length.toNat := by decide +kernel

/-- `ready` with a second source of the given window. -/
def second (base size : Word) : State :=
  { ready with
    nbuf := 2, nrec := 2
    slots := ready.slots.set 1 { Slot.reset with bufBase := base, bufLen := size } }

/-- Checks 7 to 9 of 43_mixer R167 in turn, each first failing at slot 1. -/
theorem witness_MixReports_buffers :
    ((second 20 3).FormatOk ∧ 1 < (second 20 3).nbuf.toNat ∧ (second 20 3).ShortBuffer 1 ∧
        ∀ j < 1, ¬(second 20 3).ShortBuffer j) ∧
      ((second 61 4).FormatOk ∧ (∀ j < (second 61 4).nbuf.toNat, ¬(second 61 4).ShortBuffer j) ∧
        (second 61 4).BufferOutside 1 ∧ ∀ j < 1, ¬(second 61 4).BufferOutside j) ∧
      ((second 4 4).FormatOk ∧ (∀ j < (second 4 4).nbuf.toNat, ¬(second 4 4).ShortBuffer j) ∧
        (∀ j < (second 4 4).nbuf.toNat, ¬(second 4 4).BufferOutside j) ∧ (second 4 4).BufferOverlaps 1 ∧
        ∀ j < 1, ¬(second 4 4).BufferOverlaps j) := by
  refine ⟨⟨?_, ?_, ?_, ?_⟩, ⟨?_, ?_, ?_, ?_⟩, ?_, ?_, ?_, ?_, ?_⟩ <;> decide +kernel

theorem witness_RejectedCommandsChangeOnlyStatus :
    idle.phase = .idle ∧ ∃ t, idle.writeCmd 0x02 = .next t ∧ t.err = true := by
  exact ⟨rfl, exists_next (p := fun t => t.err) (by decide +kernel)⟩

theorem witness_CommandsReport_index :
    idle.phase = .idle ∧ (∃ t, exec (.lutrd 5) idle = .next t ∧ t.err = true) ∧
      ∃ t, exec (.xstep 3) idle = .next t ∧ t.err = true :=
  ⟨rfl, exists_next (p := fun t => t.err) (by decide +kernel),
    exists_next (p := fun t => t.err) (by decide +kernel)⟩

theorem witness_CommandsReport_width :
    idle.phase = .idle ∧ (∃ t, exec (.dec 0) idle = .next t ∧ t.err = true) ∧
      ∃ t, exec (.enc 255) idle = .next t ∧ t.err = true :=
  ⟨rfl, exists_next (p := fun t => t.err) (by decide +kernel),
    exists_next (p := fun t => t.err) (by decide +kernel)⟩

theorem witness_CommandsReport_mix :
    (second 20 3).phase = .idle ∧ ∃ t, exec .mix (second 20 3) = .next t ∧ t.err = true :=
  ⟨rfl, exists_next (p := fun t => t.err) (by decide +kernel)⟩

theorem witness_CommandsWhileBusyAreDropped :
    (duringWith 1 (.reg (.write (portOf 0x008) 0x1))).phase ≠ .idle ∧
      (duringWith 1 (.reg (.write (portOf 0x008) 0x1))).inputs =
        .reg (.write (portOf 0x008) 0x1) :: [] := by decide +kernel

theorem witness_ResChangesOnlyByItsCommands :
    ∃ t, step ({ idle with opa := 0x7F, inputs := [.reg (.write (portOf 0x008) 0x110)] } : State) = .next t ∧
      decide (t.res ≠ 0) = true :=
  exists_next (p := fun t => decide (t.res ≠ 0)) (by decide +kernel)

/-- XSTEP, the run's finish and a host write each change the slots. -/
theorem witness_SlotsChangeOnlyByTheirWriters :
    (∃ t, step ({ fading with inputs := [.reg (.write (portOf 0x008) 0x20040)] } : State) = .next t ∧
        decide (t.slots ≠ fading.slots) = true) ∧
      ∃ t, step ({ idle with inputs := [.reg (.write (portOf 0x100) 1)] } : State) = .next t ∧
        decide (t.slots ≠ idle.slots) = true :=
  ⟨exists_next (p := fun t => decide (t.slots ≠ fading.slots)) (by decide +kernel),
    exists_next (p := fun t => decide (t.slots ≠ idle.slots)) (by decide +kernel)⟩

/-- The finish writes another record back to slot 0. -/
theorem witness_SlotsChange_finish :
    ∃ t, step ({ during 3 with work := (during 3).work.set 0 { vol := 7, tlen := 2, tcur := 1 } } : State) =
        .next t ∧ decide (t.slots ≠ (during 3).slots) = true :=
  exists_next (p := fun t => decide (t.slots ≠ (during 3).slots)) (by decide +kernel)

/-! ## Witnesses: arithmetic and the units -/

/-- A sum of opposite values, and a divisor that is not zero. -/
theorem witness_ArithmeticRoundsOnceToNearestEven :
    FiniteF64 0x3FF0000000000000 ∧ FiniteF64 0xBFF0000000000000 ∧
      fInt 0x3FF0000000000000 + fInt 0xBFF0000000000000 = 0 ∧ fInt 0xBFF0000000000000 ≠ 0 ∧
      fInt 0x3FF0000000000000 - fInt 0x3FF0000000000000 = 0 := by
  decide +kernel

/-- The last integer converted exactly, the NaN beside an infinity, the infinity that is none, and values on
both sides of zero, -0.0 among them. -/
theorem witness_Arithmetic_comparisons :
    (2 ^ 53 : Int).natAbs ≤ 2 ^ 53 ∧ fIsNaN 0x7FF0000000000001 = true ∧ fIsNaN 0x7FF0000000000000 = false ∧
      FiniteF64 0xBFF8000000000000 ∧ FiniteF64 0x8000000000000000 ∧ 0 ≤ fInt 0x8000000000000000 ∧
      fInt 0xBFF8000000000000 ≤ 0 := by decide +kernel

/-- Infinity minus infinity, zero times infinity, and zero over zero are NaN. -/
theorem witness_NanResultsAreCanonical :
    fIsNaN (fadd 0x7FF0000000000000 0xFFF0000000000000) = true ∧
      fIsNaN (fmul 0x7FF0000000000000 0x8000000000000000) = true ∧
      fIsNaN (fdiv 0 0x8000000000000000) = true ∧ fVal 0x8000000000000000 = .fin true 0 := by
  decide +kernel

/-- An infinity with a finite value that is not zero, and that value over zero. -/
theorem witness_NanResults_infinities :
    fVal 0xFFF0000000000000 = .inf true ∧ FiniteF64 0x0000000000000001 ∧ fIsNaN 0x0000000000000001 = false ∧
      fVal 0x0000000000000001 ≠ .fin (fSign 0x0000000000000001) 0 ∧ fInt 0x0000000000000001 ≠ 0 ∧
      fVal 0x8000000000000000 = .fin true 0 := by decide +kernel

theorem witness_DecodeDividesTheSignedInteger :
    1 ≤ 4 ∧ ([0x00, 0x00, 0x00, 0x80] : List Byte).length = 4 := by decide

/-- The ends of the codes of one width: the most negative, its neighbour, and the largest. -/
theorem witness_DecodeRange :
    (1 ≤ 1 ∧ 1 ≤ 4) ∧ (0 < 127 ∧ 127 < 2 ^ (8 * 1 - 1)) ∧ 128 < 2 ^ (8 * 1) ∧ 255 < 2 ^ (8 * 1) := by decide

/-- 0.3, and both ends of [-1.0, 1.0]. -/
theorem witness_Encode_inRange :
    FiniteF64 0x3FD3333333333333 ∧ fLt 0x3FF0000000000000 0x3FD3333333333333 = false ∧
      fLt 0x3FD3333333333333 0xBFF0000000000000 = false ∧
      fLt 0x3FF0000000000000 0x3FF0000000000000 = false ∧
      fLt 0xBFF0000000000000 0xBFF0000000000000 = false := by decide +kernel

/-- The least value above 1.0, the greatest below -1.0, a NaN, a value below 1/128, and the value just below
1/127 whose product with 127 rounds to 1.0 (95 2.2: it encodes to 0x01). -/
theorem witness_EncodeStaysInRange :
    fLt 0x3FF0000000000000 0x3FF0000000000001 = true ∧ fLt 0xBFF0000000000001 0xBFF0000000000000 = true ∧
      fIsNaN 0x7FF8000000000000 = true ∧ FiniteF64 0x3F7FFFFFFFFFFFFF ∧
      (fInt 0x3F7FFFFFFFFFFFFF).natAbs * 2 ^ (8 * 1 - 1) < 2 ^ 1074 ∧ FiniteF64 0x3F80204081020408 ∧
      (fInt 0x3F80204081020408).natAbs * (2 ^ (8 * 1 - 1) - 1) < 2 ^ 1074 ∧
      fabs (fmul 0x3F80204081020408 (i2f (2 ^ (8 * 1 - 1) - 1))) = 0x3FF0000000000000 := by decide +kernel

theorem witness_CodesSurviveTheRoundTrip :
    ([0x00, 0x80] : List Byte).length = 2 ∧ ([0x00, 0x80] : List Byte) = toLE 2 (2 ^ (8 * 2 - 1)) ∧
      ([0x01, 0x80] : List Byte) ≠ toLE 2 (2 ^ (8 * 2 - 1)) := by decide +kernel

theorem witness_EaseTableRisesFromZeroToOne :
    Config.default.Legal ∧ 3998 ≤ 3999 ∧ 3999 < Config.default.tableSize := by decide

theorem witness_EaseIndexIsInTheTable : smallCfg.Legal := by decide

/-- Progress NaN, 0, and 1.0, each with 0.2 and 0.8; and the clause about -0.0. -/
theorem witness_EaseEndpoints :
    smallCfg.Legal ∧ fIsNaN 0x7FF8000000000000 = true ∧ fLt 0 0x8000000000000000 = false ∧
      FiniteF64 0x3FC999999999999A ∧ FiniteF64 (fsub 0x3FE999999999999A 0x3FC999999999999A) ∧
      (0x3FC999999999999A : F64) ≠ 0x8000000000000000 ∧ FiniteF64 0xBFF0000000000000 ∧
      fIsNaN 0x3FF0000000000000 = false ∧ fLt 0x3FF0000000000000 0x3FF0000000000000 = false := by
  decide +kernel

/-- One step before the end, at the end, past the end, and where the increment wraps. -/
theorem witness_CrossfadeConverges :
    (0 : Int) ≤ (4 : Word).toInt ∧ (0 : Word).toInt < (4 : Word).toInt ∧ 0 < 3 ∧
      ((3 : Nat) : Int) < (4 : Word).toInt - (0 : Word).toInt ∧
      (4 : Word).toInt - (0 : Word).toInt ≤ ((4 : Nat) : Int) ∧ (4 : Word).toInt ≤ (4 : Word).toInt ∧
      (4 : Word) ≠ 0x7FFFFFFFFFFFFFFF ∧
      ({ vol := 0, tlen := 4, tcur := 0x7FFFFFFFFFFFFFFF } : Work).tcur = 0x7FFFFFFFFFFFFFFF := by
  decide +kernel

/-- TLEN 0 with TCUR -2, where the first clause follows R142 (entry 27): two steps end it, and one does not. -/
theorem witness_Crossfade_zeroLength :
    (0 : Int) ≤ (0 : Word).toInt ∧ (0xFFFFFFFFFFFFFFFE : Word).toInt < (0 : Word).toInt ∧ 0 < 1 ∧
      ((1 : Nat) : Int) < (0 : Word).toInt - (0xFFFFFFFFFFFFFFFE : Word).toInt ∧
      (0 : Word).toInt - (0xFFFFFFFFFFFFFFFE : Word).toInt ≤ ((2 : Nat) : Int) := by decide +kernel

theorem witness_MixWithSilence :
    FiniteF64 0x8000000000000001 ∧ (0x8000000000000001 : F64) ≠ 0x8000000000000000 ∧
      fVal 0xFFF0000000000000 = .inf true := by decide +kernel

/-! ## Witnesses: the run -/

theorem inv_ready : ready.Inv := by
  refine ⟨?_, ?_, ?_, ?_, ?_, ?_⟩ <;> decide +kernel

theorem inv_during_0 : (during 0).Inv := by
  refine ⟨?_, ?_, ?_, ?_, ?_, ?_⟩ <;> decide +kernel

theorem inv_during_2 : (during 2).Inv := by
  refine ⟨?_, ?_, ?_, ?_, ?_, ?_⟩ <;> decide +kernel

theorem inv_during_3 : (during 3).Inv := by
  refine ⟨?_, ?_, ?_, ?_, ?_, ?_⟩ <;> decide +kernel

theorem inv_idle : idle.Inv := by
  refine ⟨?_, ?_, ?_, ?_, ?_, ?_⟩ <;> decide +kernel

/-- The two equations of the hypotheses only name their right sides. -/
theorem witness_SampleStepMixesOneSample :
    (during 0).Inv ∧ (during 0).phase = .sample ∧ (during 0).tainted = false ∧
      (during 0).pos.toNat + (during 0).bs ≤ (during 0).length.toNat :=
  ⟨inv_during_0, by decide +kernel⟩

/-- The run of `ready` with the first byte of its first sample written. -/
def midSample : State := stateOf (during 0).runByte

theorem inv_midSample : midSample.Inv := by
  refine ⟨?_, ?_, ?_, ?_, ?_, ?_⟩ <;> decide +kernel

theorem witness_SampleStep_midSample :
    midSample.Inv ∧ midSample.phase = .sample ∧ midSample.beat ≠ 0 ∧ midSample.beat + 1 = midSample.bs ∧
      (during 0).beat + 1 < (during 0).bs ∧ midSample.tainted = false ∧
      midSample.pos.toNat + midSample.bs ≤ midSample.length.toNat :=
  ⟨inv_midSample, by decide +kernel⟩

theorem witness_TailWritesZeros :
    (during 2).Inv ∧ (during 2).phase ≠ .idle ∧ (during 2).tainted = false ∧
      (during 2).length.toNat < (during 2).pos.toNat + (during 2).bs ∧
      (during 2).pos.toNat + (during 2).beat < (during 2).length.toNat :=
  ⟨inv_during_2, by decide +kernel⟩

/-- A run of one byte, too short for a 16-bit sample, right after its acceptance: PHASE is still SAMPLE. -/
def short : State := stateOf (exec .mix { ready with length := 1 })

theorem inv_short : short.Inv := by
  refine ⟨?_, ?_, ?_, ?_, ?_, ?_⟩ <;> decide +kernel

theorem witness_TailWrites_short :
    short.Inv ∧ short.phase = .sample ∧ short.tainted = false ∧
      short.length.toNat < short.pos.toNat + short.bs ∧ short.pos.toNat + short.beat < short.length.toNat :=
  ⟨inv_short, by decide +kernel⟩

theorem witness_FinishWritesBack :
    (during 3).Inv ∧ (during 3).phase ≠ .idle ∧
      (during 3).length.toNat < (during 3).pos.toNat + (during 3).bs ∧
      (during 3).pos.toNat + (during 3).beat = (during 3).length.toNat :=
  ⟨inv_during_3, by decide +kernel⟩

/-- A sample step, a single byte and a tail write; address 5 is outside what each stores. -/
theorem witness_RunStepsStoreOnlyTheirBytes :
    (∃ t, (during 0).runStep = .next t ∧ true = true) ∧ (∃ t, (during 0).runByte = .next t ∧ true = true) ∧
      (∃ t, (during 2).runStep = .next t ∧ true = true) ∧ (during 0).nextPhase ≠ .finish ∧
      (during 0).outAddr + ((during 0).bs - (during 0).beat) ≤ 5 :=
  ⟨exists_next (p := fun _ => true) (by decide +kernel), exists_next (p := fun _ => true) (by decide +kernel),
    exists_next (p := fun _ => true) (by decide +kernel), by decide +kernel, by decide +kernel⟩

theorem witness_RunRefinesWholeMix :
    ready.Inv ∧ ready.phase = .idle ∧ ready.inputs = [] ∧ ready.AcceptsMix :=
  ⟨inv_ready, by decide +kernel⟩

/-- What the host does during the witness run: it looks at POS and DMEM between single bytes. -/
def looks : List Event :=
  [.runByte, .memRead 0 2, .reg (.read (portOf 0x070)), .runByte, .wait]

theorem witness_OutputIsAlwaysAPrefix :
    ready.Inv ∧ ready.phase = .idle ∧ ready.AcceptsMix ∧ (∀ e ∈ looks, e.quiet = true) ∧
      (∃ t, exec .mix { ready with inputs := looks } = .next t ∧
        nextHas (Host.Core.run Sys2Proof.core 3 t) (fun u => u.pos == 0) = true) :=
  ⟨inv_ready, by decide +kernel, by decide +kernel, by decide +kernel,
    exists_next (p := fun t => nextHas (Host.Core.run Sys2Proof.core 3 t) fun u => u.pos == 0)
      (by decide +kernel)⟩

theorem witness_RunsNeverFault :
    (during 2).Inv ∧ (during 2).phase ≠ .idle ∧
      ∃ t, (during 2).runStep = .next t ∧ decide (t.phase ≠ .idle) = true :=
  ⟨inv_during_2, by decide +kernel, exists_next (p := fun t => decide (t.phase ≠ .idle)) (by decide +kernel)⟩

theorem witness_PosNeverDecreases :
    (during 0).Inv ∧ (during 0).phase ≠ .idle ∧
      ∃ t, step (during 0) = .next t ∧ decide (t.phase ≠ .idle) = true :=
  ⟨inv_during_0, by decide +kernel,
    exists_next (p := fun t => decide (t.phase ≠ .idle)) (by decide +kernel)⟩

/-- `ready` with its source at volume +0.0. -/
def silent : State :=
  { ready with slots := ready.slots.set 0 { Slot.reset with bufBase := 8, bufLen := 4 } }

theorem inv_silent : silent.Inv := by
  refine ⟨?_, ?_, ?_, ?_, ?_, ?_⟩ <;> decide +kernel

theorem witness_SilenceGivesZeros :
    silent.Inv ∧ silent.phase = .idle ∧ silent.inputs = [] ∧ silent.AcceptsMix ∧
      ∀ i < silent.nbuf.toNat, (silent.slot i).volume = 0 ∧ (silent.slot i).tlen.toInt < 0 :=
  ⟨inv_silent, by decide +kernel⟩

/-- `ready` with no source at all. -/
def empty : State := { ready with nbuf := 0, nrec := 0 }

theorem inv_empty : empty.Inv := by
  refine ⟨?_, ?_, ?_, ?_, ?_, ?_⟩ <;> decide +kernel

theorem witness_SilenceGivesZeros_empty :
    empty.Inv ∧ empty.phase = .idle ∧ empty.inputs = [] ∧ empty.AcceptsMix ∧
      ∀ i < empty.nbuf.toNat, (empty.slot i).volume = 0 ∧ (empty.slot i).tlen.toInt < 0 :=
  ⟨inv_empty, by decide +kernel⟩

theorem witness_SingleSourcePassesThrough :
    ready.Inv ∧ ready.phase = .idle ∧ ready.inputs = [] ∧ ready.AcceptsMix ∧ ready.nbuf = 1 ∧
      (ready.slot 0).volume = 0x3FF0000000000000 ∧ (ready.slot 0).tlen.toInt < 0 ∧
      Memory.readBytes ready.mem ((ready.slot 0).bufBase.toNat + 1 * ready.bs) ready.bs =
        toLE ready.bs (2 ^ (8 * ready.bs - 1)) :=
  ⟨inv_ready, by decide +kernel⟩

/-! ## Witnesses: reset, the port and the host -/

/-- The smallest and the largest legal parameters. -/
theorem witness_ResetValues :
    ({ maxSources := 1, memSize := 1, support24 := false, tableSize := 2 } : Config).Legal ∧
      ({ maxSources := 60, memSize := 2 ^ 64, support24 := true, tableSize := 65535 } : Config).Legal := by
  decide

theorem witness_ResetInputResetsTheBlock :
    (duringWith 1 (.reset (some (.write (portOf 0x020) 4)))).inputs =
      .reset (some (.write (portOf 0x020) 4)) :: [] := by decide +kernel

/-- In the run of `ready` only entry 0 is in use; entry 2 may differ. -/
theorem witness_UnloadedWorkIsUnobservable :
    ((during 1).work.set 2 { vol := 7, tlen := 8, tcur := 9 }).length = (during 1).work.length ∧
      (∀ i < (during 1).nbuf.toNat,
        ((during 1).work.set 2 { vol := 7, tlen := 8, tcur := 9 })[i]? = (during 1).work[i]?) ∧
      ∃ t, step (during 1) = .next t ∧ decide (t.phase ≠ .idle) = true :=
  ⟨by decide +kernel, by decide +kernel,
    exists_next (p := fun t => decide (t.phase ≠ .idle)) (by decide +kernel)⟩

theorem witness_RunStateIgnoresDmem :
    [(0xFF : Byte)].length = midSample.held.length ∧
      (∃ t, midSample.runStep = .next t ∧ (t.pos == 2) = true) ∧
      ∃ t, midSample.runByte = .next t ∧ (t.pos == 2) = true :=
  ⟨by decide +kernel, exists_next (p := fun t => t.pos == 2) (by decide +kernel),
    exists_next (p := fun t => t.pos == 2) (by decide +kernel)⟩

/-- Every step of the witness run, from its acceptance to its finish. -/
theorem witness_EveryStepKeepsTheInvariant :
    (during 3).Inv ∧ ∃ t, step (during 3) = .next t ∧ t.done = true :=
  ⟨inv_during_3, exists_next (p := fun t => t.done) (by decide +kernel)⟩

theorem witness_ThirtyTwoBitRegistersDropUpperBits : idle.phase = .idle := by decide

theorem witness_OperandRegistersAreTheHosts :
    idle.phase = .idle ∧ ∃ t, exec .ease idle = .next t ∧ t.done = true :=
  ⟨by decide, exists_next (p := fun t => t.done) (by decide +kernel)⟩

theorem witness_SlotFieldsKeepTheirPatterns :
    idle.ShapeOk ∧ idle.phase = .idle ∧ 2 < idle.cfg.maxSources ∧ 6 < 7 ∧
      ∃ t, idle.writeReg (portOf (0x100 + 0x40 * 2 + 8 * 6)) 5 = .next t ∧ ((t.slot 2).bufLen == 5) = true :=
  ⟨by decide +kernel, by decide, by decide, by decide,
    exists_next (p := fun t => (t.slot 2).bufLen == 5) (by decide +kernel)⟩

/-- 0x0F8, word 0x38 of slot 0, and slot 3 of a machine with three. -/
theorem witness_UnmappedOffsetsReadZero :
    (0x0F8 % 8 = 0 ∧ 0x080 ≤ 0x0F8 ∧ 0x0F8 ≤ 0x0F8) ∧
      (0x138 < 0x1000 ∧ 0x138 % 8 = 0 ∧ 0x100 ≤ 0x138 ∧ (0x138 - 0x100) % 0x40 = 0x38) ∧
      (0x1C0 % 8 = 0 ∧ 0x100 ≤ 0x1C0 ∧ idle.cfg.maxSources ≤ (0x1C0 - 0x100) / 0x40) := by decide

theorem witness_BusyProtectsTheRegistersOfARun :
    (duringWith 1 (.reg (.write (portOf 0x020) 1))).phase ≠ .idle ∧ portOf 0x020 ≠ portOf 0x008 ∧
      portOf 0x020 ≠ portOf 0x010 ∧ portOf 0x020 ≠ portOf 0x018 ∧ (during 1).cfg.Legal ∧
      2 < (during 1).cfg.maxSources ∧
      ∃ t, step (duringWith 1 (.reg (.write (portOf 0x020) 1))) = .next t ∧
        decide (t.phase ≠ .idle) = true :=
  ⟨by decide +kernel, by decide, by decide, by decide, by decide +kernel, by decide +kernel,
    exists_next (p := fun t => decide (t.phase ≠ .idle)) (by decide +kernel)⟩

/-- A STATUS read while idle and another, and a wait while idle and while BUSY. -/
theorem witness_RegisterReadsHaveNoEffect :
    idle.phase = .idle ∧ portOf 0x070 ≠ portOf 0x010 ∧ (during 1).phase ≠ .idle ∧ (during 1).duties ≠ [] ∧
      ∃ t, (during 1).perform .wait = .next t ∧ decide (t.duties ≠ []) = true :=
  ⟨by decide, by decide, by decide +kernel, by decide +kernel,
    exists_next (p := fun t => decide (t.duties ≠ [])) (by decide +kernel)⟩

theorem witness_IdentificationRegisters : Config.default.Legal ∧ State.reset.cfg = Config.default := by
  decide

theorem witness_InterruptFollowsDoneAndErr :
    ({ ready with irqEn := true } : State).phase = .idle ∧ ({ ready with irqEn := true } : State).irqEn = true ∧
      ∃ t, ({ ready with irqEn := true } : State).writeCmd 0x0 = .next t ∧ t.irq = true :=
  ⟨rfl, rfl, exists_next (p := fun t => t.irq) (by decide +kernel)⟩

/-- A write beside the windows of a run, a read of the last byte, and accesses one byte too far, for both of
which no address exists. -/
theorem witness_HostAccessesToDmem :
    Memory.wf (during 1).mem = true ∧ (5 : Word).toNat + [0x11, 0x22, (0x33 : Byte)].length ≤ (during 1).cfg.memSize ∧
      (∀ d ∈ (during 1).duties, ∀ x < 8, 5 ≤ x → d.out.has x = false ∧ ∀ v ∈ d.ins, v.has x = false) ∧
      (63 : Word).toNat + 1 ≤ (during 1).cfg.memSize ∧ 0 < 1 ∧ (during 1).cfg.memSize < (64 : Word).toNat + 1 := by
  decide +kernel

/-- A write to the first byte of an input window breaks the duty of the one run. -/
theorem witness_BrokenDutyFreesTheOutputWindow :
    Memory.wf (during 1).mem = true ∧ (8 : Word).toNat + [(0x33 : Byte)].length ≤ (during 1).cfg.memSize ∧
      (during 1).duties = [{ out := { base := 0, size := 5 }, ins := [{ base := 8, size := 4 }] }] ∧
      (∃ v ∈ ([{ base := 8, size := 4 }] : List Window), v.has 8 = true) ∧ (during 1).phase ≠ .idle := by
  decide +kernel

/-- That window as the statement says it, at its first byte, and not one byte before. -/
theorem witness_BrokenDuty_touched :
    ({ out := { base := 0, size := 5 }, ins := [{ base := 8, size := 4 }] } : Duty).TouchedBy 8 1 ∧
      ¬({ out := { base := 0, size := 5 }, ins := [{ base := 8, size := 4 }] } : Duty).TouchedBy 7 1 := by
  refine ⟨⟨8, by decide⟩, ?_⟩
  rintro ⟨x, h, h', hx⟩
  obtain rfl : x = 7 := by omega
  revert hx
  decide

/-- A run whose duty is broken, at a sample step, at a single byte and at a tail write. -/
theorem witness_BrokenDuty_taintedRun :
    Memory.wf (during 0).mem = true ∧ ({ during 0 with tainted := true } : State).tainted = true ∧
      (∃ t, ({ during 0 with tainted := true } : State).runStep = .next t ∧ (t.draws == 2) = true) ∧
      (∃ t, ({ during 0 with tainted := true } : State).runByte = .next t ∧ (t.draws == 1) = true) ∧
      ∃ t, ({ during 2 with tainted := true } : State).runStep = .next t ∧ (t.draws == 1) = true :=
  ⟨by decide +kernel, rfl, exists_next (p := fun t => t.draws == 2) (by decide +kernel),
    exists_next (p := fun t => t.draws == 1) (by decide +kernel),
    exists_next (p := fun t => t.draws == 1) (by decide +kernel)⟩

end Sys2Proof.Tests
end

section
/-! Rounding: the parts of a binary64 pattern, the significand and the scale a quotient is rounded to, and
that `fRound` gives the nearest value, ties to even (00_scope R10). -/

namespace Sys2Proof.Machine

/-! ## The parts of a pattern -/

/-- A pattern is its sign bit, its exponent and its fraction, one after the other. -/
theorem toNat_eq_parts (x : F64) :
    x.toNat = (if fSign x then 2 ^ 63 else 0) + (fExp x * 2 ^ 52 + fFrac x) := by
  have hx := x.isLt
  simp only [fSign, fExp, fFrac, BitVec.msb_eq_decide, BitVec.extractLsb'_toNat,
    Nat.shiftRight_eq_div_pow, decide_eq_true_eq]
  split_ifs <;> omega

/-- A pattern is given by its sign and its lower 63 bits. -/
theorem fPattern_parts (x : F64) : fPattern (fSign x) (fExp x * 2 ^ 52 + fFrac x) = x := by
  apply BitVec.eq_of_toNat_eq
  rw [fPattern, ← toNat_eq_parts, BitVec.toNat_ofNat, Nat.mod_eq_of_lt x.isLt]

/-- The parts of the pattern built from a sign and 63 lower bits. -/
theorem fPattern_fields {low : Nat} (neg : Bool) (h : low < 2 ^ 63) :
    fSign (fPattern neg low) = neg ∧ fExp (fPattern neg low) = low / 2 ^ 52 ∧
      fFrac (fPattern neg low) = low % 2 ^ 52 := by
  have ht : (fPattern neg low).toNat = (if neg then 2 ^ 63 else 0) + low := by
    rw [fPattern, BitVec.toNat_ofNat, Nat.mod_eq_of_lt (by split_ifs <;> omega)]
  simp only [fSign, fExp, fFrac, BitVec.msb_eq_decide, BitVec.extractLsb'_toNat,
    Nat.shiftRight_eq_div_pow, ht]
  cases neg <;> simp <;> omega

/-- The sign bit alone is flipped; exponent and fraction stay. -/
@[simp] theorem fSign_fneg (x : F64) : fSign (fneg x) = !fSign x := by
  have hbit : (0x8000000000000000 : F64).msb = true := by decide
  simp only [fSign, fneg, BitVec.msb_xor, hbit, Bool.xor_true]

@[simp] theorem fExp_fneg (x : F64) : fExp (fneg x) = fExp x := by
  simp [fExp, fneg, BitVec.extractLsb'_xor]

@[simp] theorem fFrac_fneg (x : F64) : fFrac (fneg x) = fFrac x := by
  simp [fFrac, fneg, BitVec.extractLsb'_xor]

@[simp] theorem fUnits_fneg (x : F64) : fUnits (fneg x) = fUnits x := by simp [fUnits]

@[simp] theorem fInt_fneg (x : F64) : fInt (fneg x) = -fInt x := by
  cases h : fSign x <;> simp [fInt, signedInt, h]

@[simp] theorem fneg_fneg (x : F64) : fneg (fneg x) = x := by simp [fneg]

/-- Flipping the sign bit of a pattern given by its sign and its lower 63 bits. -/
theorem fneg_fPattern {low : Nat} (neg : Bool) (h : low < 2 ^ 63) :
    fneg (fPattern neg low) = fPattern (!neg) low := by
  obtain ⟨hs, he, hf⟩ := fPattern_fields neg h
  obtain ⟨hs', he', hf'⟩ := fPattern_fields (!neg) h
  rw [← fPattern_parts (fneg _), ← fPattern_parts (fPattern (!neg) low)]
  simp only [fSign_fneg, fExp_fneg, fFrac_fneg, hs, he, hf, hs', he', hf']

@[simp] theorem natAbs_signedInt (neg : Bool) (u : Nat) : (signedInt neg u).natAbs = u := by
  cases neg <;> simp [signedInt]

/-- The magnitude of a finite value is its units. -/
@[simp] theorem natAbs_fInt (x : F64) : (fInt x).natAbs = fUnits x := natAbs_signedInt _ _

/-! ## Rounding a quotient to a whole number -/

/-- Where n/d lies halfway between two whole numbers, the rounded one is even (00_scope R10). -/
theorem roundHalfEven_even_of_half {n d : Nat} (hd : 0 < d)
    (h : 2 * ((n : Int) - roundHalfEven n d * d).natAbs = d) : roundHalfEven n d % 2 = 0 := by
  by_contra hodd
  have htie : 2 * (n % d) ≠ d := fun ht => hodd (roundHalfEven_tie ht)
  have hdiv : (n : Int) = ↑(n / d) * d + ↑(n % d) := by
    exact_mod_cast (Nat.div_add_mod' n d).symm
  have hlt := Nat.mod_lt n hd
  unfold roundHalfEven at h
  split_ifs at h with h1 h2
  · rw [hdiv, add_sub_cancel_left] at h
    omega
  · have hm : (n : Int) - ((n / d + 1 : Nat) : Int) * d = ↑(n % d) - d := by
      rw [hdiv]; push_cast; ring
    rw [hm] at h
    omega
  · omega

/-- No whole number is nearer to n/d than the rounded one, and where another is as near, the rounded one
is even (00_scope R10, roundTiesToEven). -/
theorem roundHalfEven_nearest {n d : Nat} (hd : 0 < d) (j : Int) :
    ((n : Int) - roundHalfEven n d * d).natAbs ≤ ((n : Int) - j * d).natAbs ∧
      (((n : Int) - roundHalfEven n d * d).natAbs = ((n : Int) - j * d).natAbs →
        j ≠ roundHalfEven n d → roundHalfEven n d % 2 = 0) := by
  by_cases hj : j = roundHalfEven n d
  · exact ⟨by rw [hj], fun _ h => absurd hj h⟩
  · obtain ⟨hle, hge⟩ := roundHalfEven_near (n := n) hd
    have heven := roundHalfEven_even_of_half (n := n) hd
    have hfar : (d : Int) ≤ |(roundHalfEven n d - j) * d| := by
      rw [abs_mul, Nat.abs_cast]
      exact le_mul_of_one_le_left (by omega) (Int.one_le_abs (by omega))
    rw [sub_mul] at hfar
    zify at hle hge
    generalize (roundHalfEven n d : Int) * d = p at *
    generalize j * (d : Int) = q at *
    rw [le_abs] at hfar
    omega

/-! ## Rounding at the scale of the value -/

/-- A value is below the top of its binade. -/
theorem lt_scaled (n : Nat) {d : Nat} (hd : 0 < d) : n < 2 ^ 53 * (d * 2 ^ fScale n d) := by
  have hlog : n / d < 2 ^ (fScale n d + 53) := by
    refine Nat.lt_log2_self.trans_le (Nat.pow_le_pow_right (by decide) ?_)
    unfold fScale
    omega
  have := (Nat.div_lt_iff_lt_mul hd).1 hlog
  calc n < 2 ^ (fScale n d + 53) * d := this
    _ = 2 ^ 53 * (d * 2 ^ fScale n d) := by ring

/-- Above the smallest spacing a value is not below the bottom of its binade. -/
theorem scaled_le {n d : Nat} (hd : 0 < d) (hk : fScale n d ≠ 0) :
    2 ^ 52 * (d * 2 ^ fScale n d) ≤ n := by
  have hlog : Nat.log2 (n / d) = fScale n d + 52 := by unfold fScale at *; omega
  have hne : n / d ≠ 0 := by
    intro h
    simp [h, Nat.log2] at hlog
  have := (Nat.le_div_iff_mul_le hd).1 (Nat.log2_self_le hne)
  rw [hlog] at this
  calc 2 ^ 52 * (d * 2 ^ fScale n d) = 2 ^ (fScale n d + 52) * d := by ring
    _ ≤ n := this

/-- The significand a value is rounded to: n/d in units of its spacing, rounded (00_scope R10). -/
def significand (n d : Nat) : Nat := roundHalfEven n (d * 2 ^ fScale n d)

theorem fRound_eq (neg : Bool) (n d : Nat) :
    fRound neg n d = fPattern neg (min (fScale n d * 2 ^ 52 + significand n d) fInfLow) := rfl

theorem significand_le (n : Nat) {d : Nat} (hd : 0 < d) : significand n d ≤ 2 ^ 53 := by
  have hD : 0 < d * 2 ^ fScale n d := by positivity
  have hn := lt_scaled n hd
  have hm := (roundHalfEven_near (n := n) hD).1
  unfold significand
  by_contra! h
  nlinarith

theorem le_significand {n d : Nat} (hd : 0 < d) (hk : fScale n d ≠ 0) : 2 ^ 52 ≤ significand n d := by
  have hD : 0 < d * 2 ^ fScale n d := by positivity
  have hn := scaled_le hd hk
  have hm := (roundHalfEven_near (n := n) hD).2
  unfold significand
  by_contra! h
  nlinarith

/-- The units of the lower bits that spell the significand m at the scale k. -/
theorem fUnits_scaled {m k : Nat} (neg : Bool) (hm : m ≤ 2 ^ 53) (hk : k ≠ 0 → 2 ^ 52 ≤ m)
    (hfin : k * 2 ^ 52 + m < fInfLow) : fUnits (fPattern neg (k * 2 ^ 52 + m)) = m * 2 ^ k := by
  obtain ⟨-, he, hf⟩ := fPattern_fields neg (hfin.trans (by decide))
  unfold fUnits
  rw [he, hf]
  by_cases hsub : m < 2 ^ 52
  · obtain rfl : k = 0 := by omega
    rw [if_pos (by omega), Nat.mod_eq_of_lt (by omega), pow_zero]
    omega
  · rw [if_neg (by omega)]
    rcases hm.eq_or_lt with rfl | hlt
    · rw [show (k * 2 ^ 52 + 2 ^ 53) / 2 ^ 52 - 1 = k + 1 by omega,
        show (k * 2 ^ 52 + 2 ^ 53) % 2 ^ 52 = 0 by omega]
      ring
    · rw [show (k * 2 ^ 52 + m) / 2 ^ 52 - 1 = k by omega,
        show 2 ^ 52 + (k * 2 ^ 52 + m) % 2 ^ 52 = m by omega]

/-- A finite value from 2^52 spacings on is a whole number of them. -/
theorem pow_dvd_fUnits {x : F64} {k : Nat} (h : 2 ^ 52 * 2 ^ k ≤ fUnits x) : 2 ^ k ∣ fUnits x := by
  have hf := fFrac_lt x
  unfold fUnits at *
  split_ifs at * with he
  · have := Nat.one_le_two_pow (n := k)
    omega
  · have hlt : 2 ^ 52 * 2 ^ k < 2 ^ 53 * 2 ^ (fExp x - 1) := by
      refine h.trans_lt (Nat.mul_lt_mul_of_pos_right (by omega) (by positivity))
    rw [← pow_add, ← pow_add] at hlt
    have := (Nat.pow_lt_pow_iff_right (by decide)).1 hlt
    exact Dvd.dvd.mul_left (pow_dvd_pow 2 (by omega)) _

/-- At the scale e + 1 the significand is the top one exactly from halfway below it on: there the tie goes
up, since the one below is odd. -/
theorem top_le_significand_iff {n d e : Nat} (hd : 0 < d) (hk : fScale n d = e + 1) :
    2 ^ 53 ≤ significand n d ↔ (2 ^ 54 - 1) * 2 ^ e * d ≤ n := by
  have hD : d * 2 ^ fScale n d = 2 * (2 ^ e * d) := by rw [hk]; ring
  have hq : 0 < 2 ^ e * d := by positivity
  have hnear := roundHalfEven_near (n := n) (d := 2 * (2 ^ e * d)) (by omega)
  have heven := roundHalfEven_even_of_half (n := n) (d := 2 * (2 ^ e * d)) (by omega)
  rw [significand, hD, mul_assoc]
  generalize roundHalfEven n _ = m at *
  generalize 2 ^ e * d = q at *
  rw [Nat.mul_left_comm m 2 q] at hnear
  obtain ⟨hle, hge⟩ := hnear
  constructor
  · intro hm
    have := Nat.mul_le_mul_right q hm
    omega
  · intro hn
    by_contra! hm
    obtain rfl : m = 2 ^ 53 - 1 := by
      by_contra hne
      have := Nat.mul_le_mul_right q (show m ≤ 2 ^ 53 - 2 by omega)
      omega
    omega

/-- The lower bits carry into exponent e + 3 exactly from halfway past the largest value below it on. -/
theorem carry_iff {n d e : Nat} (hd : 0 < d) :
    (e + 3) * 2 ^ 52 ≤ fScale n d * 2 ^ 52 + significand n d ↔ (2 ^ 54 - 1) * 2 ^ e * d ≤ n := by
  have hm := significand_le n hd
  rcases lt_trichotomy (fScale n d) (e + 1) with hk | hk | hk
  · have hn : n < (2 ^ 54 - 1) * 2 ^ e * d := by
      calc n < 2 ^ 53 * (d * 2 ^ fScale n d) := lt_scaled n hd
        _ ≤ (2 ^ 54 - 1) * (d * 2 ^ e) := by
          gcongr <;> omega
        _ = (2 ^ 54 - 1) * 2 ^ e * d := by ring
    omega
  · rw [← top_le_significand_iff hd hk]
    omega
  · have hmin := le_significand (n := n) hd (by omega)
    have hn : (2 ^ 54 - 1) * 2 ^ e * d ≤ n := by
      calc (2 ^ 54 - 1) * 2 ^ e * d ≤ 2 ^ 54 * 2 ^ e * d := by gcongr; omega
        _ = 2 ^ 52 * (d * 2 ^ (e + 2)) := by ring
        _ ≤ 2 ^ 52 * (d * 2 ^ fScale n d) := by gcongr <;> omega
        _ ≤ n := scaled_le hd (by omega)
    omega

/-- The lower bits reach those of an infinity exactly from halfway past the largest finite value on
(00_scope R10). -/
theorem overflow_iff {n d : Nat} (hd : 0 < d) :
    fInfLow ≤ fScale n d * 2 ^ 52 + significand n d ↔ (2 ^ 54 - 1) * 2 ^ 2044 * d ≤ n :=
  carry_iff hd

/-! ## A rounded quotient -/

theorem fOneUnits_pos : 0 < fOneUnits := by unfold fOneUnits; positivity

/-- The sign of a rounded value is the one given. -/
@[simp] theorem fSign_fRound (neg : Bool) (n d : Nat) : fSign (fRound neg n d) = neg :=
  (fPattern_fields neg ((min_le_right _ _).trans_lt (by decide))).1

/-- Flipping the sign of a rounded value. -/
theorem fneg_fRound (neg : Bool) (n d : Nat) : fneg (fRound neg n d) = fRound (!neg) n d :=
  fneg_fPattern neg ((min_le_right _ _).trans_lt (by decide))

theorem fneg_fInf (neg : Bool) : fneg (fInf neg) = fInf (!neg) := fneg_fPattern neg (by decide)

/-- From halfway past the largest finite value on, an infinity. -/
theorem fRound_overflow (neg : Bool) {n d : Nat} (hd : 0 < d) (h : (2 ^ 54 - 1) * 2 ^ 2044 * d ≤ n) :
    fRound neg n d = fInf neg := by
  rw [fRound_eq, min_eq_right ((overflow_iff hd).2 h), fInf]

/-- Below that, the significand in units of the spacing, its lowest bit the lowest of the fraction. -/
theorem fRound_finite (neg : Bool) {n d : Nat} (hd : 0 < d) (h : n < (2 ^ 54 - 1) * 2 ^ 2044 * d) :
    FiniteF64 (fRound neg n d) ∧ fUnits (fRound neg n d) = significand n d * 2 ^ fScale n d ∧
      fFrac (fRound neg n d) % 2 = significand n d % 2 := by
  have hlow : fScale n d * 2 ^ 52 + significand n d < fInfLow := by
    rw [← not_le, overflow_iff hd]
    omega
  rw [fRound_eq, min_eq_left hlow.le]
  obtain ⟨-, he, hf⟩ := fPattern_fields neg (hlow.trans (by decide))
  refine ⟨?_, fUnits_scaled neg (significand_le n hd) (le_significand hd) hlow, ?_⟩
  · rw [FiniteF64, he]
    unfold fInfLow at hlow
    omega
  · rw [hf]
    omega

/-- A quotient that is a whole number of spacings is kept exactly. -/
theorem fRound_exact (neg : Bool) {n d : Nat} (hd : 0 < d) (h : n < (2 ^ 54 - 1) * 2 ^ 2044 * d)
    (hdvd : d * 2 ^ fScale n d ∣ n) : fUnits (fRound neg n d) * d = n := by
  have hm : significand n d = n / (d * 2 ^ fScale n d) := by
    have hD : 0 < d * 2 ^ fScale n d := by positivity
    simp [significand, roundHalfEven, Nat.mod_eq_zero_of_dvd hdvd, hD]
  obtain ⟨-, hu, -⟩ := fRound_finite neg hd h
  rw [hu, hm, mul_assoc, mul_comm (2 ^ _) d, Nat.div_mul_cancel hdvd]

/-- No finite value is nearer than the significand at the spacing, and where another is as near, the
significand is even: the others are on the grid of spacings or below the binade of the quotient. -/
theorem significand_nearest {n d : Nat} (hd : 0 < d) (y : F64) :
    let r : Int := significand n d * 2 ^ fScale n d
    ((n : Int) - r * d).natAbs ≤ ((n : Int) - fInt y * d).natAbs ∧
      (((n : Int) - r * d).natAbs = ((n : Int) - fInt y * d).natAbs → fInt y ≠ r →
        significand n d % 2 = 0) := by
  have hD : 0 < d * 2 ^ fScale n d := by positivity
  have hnearest := roundHalfEven_nearest (n := n) hD
  rw [← significand] at hnearest
  have hscale (j : Int) : j * 2 ^ fScale n d * d = j * (d * 2 ^ fScale n d : Nat) := by
    push_cast; ring
  intro r
  by_cases hgrid : ∃ j : Int, fInt y = j * 2 ^ fScale n d
  · obtain ⟨j, hj⟩ := hgrid
    obtain ⟨hle, htie⟩ := hnearest j
    rw [hj, hscale, hscale]
    exact ⟨hle, fun he hne => htie he fun h => hne (by rw [h])⟩
  · have hk : fScale n d ≠ 0 := fun h => hgrid ⟨fInt y, by rw [h, pow_zero, mul_one]⟩
    have hbelow : fInt y < 2 ^ 52 * 2 ^ fScale n d := by
      by_contra! hge
      have hdvd : 2 ^ fScale n d ∣ (fInt y).natAbs := by
        rw [natAbs_fInt]
        refine pow_dvd_fUnits ?_
        rw [← natAbs_fInt]
        zify
        exact hge.trans (le_abs_self _)
      obtain ⟨j, hj⟩ := Int.natCast_dvd.2 hdvd
      exact hgrid ⟨j, by rw [hj]; push_cast; ring⟩
    have hbottom := scaled_le hd hk
    have hle := (hnearest (2 ^ 52)).1
    have hlt : fInt y * d < 2 ^ 52 * (d * 2 ^ fScale n d : Nat) := by
      rw [← hscale]
      exact mul_lt_mul_of_pos_right hbelow (by exact_mod_cast hd)
    rw [hscale]
    generalize d * 2 ^ fScale n d = D at *
    omega

theorem FiniteF64.fneg {x : F64} (h : FiniteF64 x) : FiniteF64 (fneg x) := by
  rwa [FiniteF64, fExp_fneg]

/-- What `RoundsTo` says, field by field. -/
structure NearestEven (r : F64) (n : Int) (d : Nat) : Prop where
  overflow : (2 ^ 54 - 1) * 2 ^ 2044 * d ≤ n.natAbs → r = fInf (n < 0)
  finite : n.natAbs < (2 ^ 54 - 1) * 2 ^ 2044 * d → FiniteF64 r
  nearest : n.natAbs < (2 ^ 54 - 1) * 2 ^ 2044 * d → ∀ y : F64, FiniteF64 y →
    (n - fInt r * d).natAbs ≤ (n - fInt y * d).natAbs ∧
      ((n - fInt r * d).natAbs = (n - fInt y * d).natAbs → fInt y ≠ fInt r → fFrac r % 2 = 0)

theorem roundsTo_iff_nearestEven (r : F64) (n : Int) (d : Nat) : RoundsTo r n d ↔ NearestEven r n d := by
  unfold RoundsTo
  by_cases hover : (2 ^ 54 - 1) * 2 ^ 2044 * d ≤ n.natAbs
  · rw [if_pos hover]
    exact ⟨fun h => ⟨fun _ => h, fun hlt => absurd hover hlt.not_ge,
        fun hlt => absurd hover hlt.not_ge⟩,
      fun h => h.overflow hover⟩
  · rw [if_neg hover]
    exact ⟨fun h => ⟨fun hge => absurd hge hover, fun _ => h.1, fun _ => h.2⟩,
      fun h => ⟨h.finite (not_le.1 hover), h.nearest (not_le.1 hover)⟩⟩

/-- Rounding is odd: the opposite value rounds to the opposite pattern. -/
theorem NearestEven.fneg {r : F64} {n : Int} {d : Nat} (hd : 0 < d) (h : NearestEven r n d) :
    NearestEven (fneg r) (-n) d where
  overflow hover := by
    rw [Int.natAbs_neg] at hover
    have hpos : 0 < n.natAbs := hover.trans_lt' (by positivity)
    rw [h.overflow hover, fneg_fInf]
    congr 1
    rw [← decide_not, decide_eq_decide]
    omega
  finite hlt := (h.finite (Int.natAbs_neg n ▸ hlt)).fneg
  nearest hlt y hy := by
    have hflip (z : Int) : (-n - z * d).natAbs = (n - -z * d).natAbs := by
      rw [← Int.natAbs_neg]; congr 1; ring
    obtain ⟨hle, htie⟩ := h.nearest (Int.natAbs_neg n ▸ hlt) _ hy.fneg
    rw [fInt_fneg] at hle htie
    rw [fInt_fneg, fFrac_fneg, hflip, hflip, neg_neg]
    exact ⟨hle, fun he hne => htie he (by omega)⟩

/-- A quotient that is not negative is rounded to nearest, ties to even. -/
theorem nearestEven_fRound_nonneg {n d : Nat} (hd : 0 < d) : NearestEven (fRound false n d) n d := by
  have hr (hlt : n < (2 ^ 54 - 1) * 2 ^ 2044 * d) :
      fInt (fRound false n d) = significand n d * 2 ^ fScale n d := by
    rw [fInt, fSign_fRound, (fRound_finite false hd hlt).2.1]
    simp [signedInt]
  constructor <;> rw [Int.natAbs_natCast]
  case overflow =>
    intro hover
    rw [fRound_overflow false hd hover]
    congr 1
  case finite => exact fun hlt => (fRound_finite false hd hlt).1
  case nearest =>
    intro hlt y _
    rw [hr hlt, (fRound_finite false hd hlt).2.2]
    exact significand_nearest hd y

/-- `fRound` rounds once to nearest, ties to even (00_scope R10). -/
theorem nearestEven_fRound (neg : Bool) {n d : Nat} (hd : 0 < d) :
    NearestEven (fRound neg n d) (signedInt neg n) d := by
  have hpos := nearestEven_fRound_nonneg (n := n) hd
  cases neg with
  | false => exact hpos
  | true => exact fneg_fRound false n d ▸ hpos.fneg hd

/-- An integer is a signed magnitude. -/
theorem signedInt_natAbs (n : Int) : signedInt (n < 0) n.natAbs = n := by
  unfold signedInt
  split_ifs with h <;> simp at h <;> omega

theorem signedInt_mul (s t : Bool) (u v : Nat) :
    signedInt (s != t) (u * v) = signedInt s u * signedInt t v := by
  cases s <;> cases t <;> simp [signedInt]

/-- The sign of a value that is not zero. -/
theorem sign_signedInt (neg : Bool) {u : Nat} (hu : 0 < u) : (signedInt neg u).sign = signedInt neg 1 := by
  cases neg <;> simp [signedInt, Int.sign_eq_one_of_pos, hu]

end Sys2Proof.Machine
end

section
/-! The binary64 operations: one rounding of the exact result on finite operands (00_scope R10, R12), and
an equation per kind of operands for infinities, zero divisors and NaN (R11, 60_exceptions R226). -/

namespace Sys2Proof.Machine

/-! ## The operations on finite operands -/

theorem natCast_fOneUnits : (fOneUnits : Int) = 2 ^ 1074 := by
  rw [fOneUnits, Nat.cast_pow, Nat.cast_ofNat]

/-- An integer in units. -/
theorem signedInt_units (n : Int) : signedInt (n < 0) (n.natAbs * fOneUnits) = n * fOneUnits := by
  have hsplit := signedInt_mul (n < 0) false n.natAbs fOneUnits
  rwa [Bool.bne_false, signedInt_natAbs] at hsplit

@[simp] theorem fSign_fZero (neg : Bool) : fSign (fZero neg) = neg :=
  (fPattern_fields neg (by decide)).1

/-- Zero rounds to zero. -/
theorem fRound_zero (neg : Bool) (d : Nat) : fRound neg 0 d = fZero neg := by
  have hk : fScale 0 d = 0 := by simp [fScale, Nat.log2]
  have hm : significand 0 d = 0 := by simp [significand, roundHalfEven]
  rw [fRound_eq, hk, hm]
  rfl

/-- A sum (00_scope R10). -/
theorem nearestEven_fadd {a b : F64} (ha : FiniteF64 a) (hb : FiniteF64 b) :
    NearestEven (fadd a b) (fInt a + fInt b) 1 := by
  rw [fadd_finite ha hb]
  split_ifs with h0
  · have hzero := nearestEven_fRound (fSign a && fSign b) (n := 0) Nat.one_pos
    rwa [fRound_zero, show signedInt _ 0 = 0 by simp [signedInt], ← h0] at hzero
  · simpa only [signedInt_natAbs] using
      nearestEven_fRound (decide (fInt a + fInt b < 0)) (n := (fInt a + fInt b).natAbs) Nat.one_pos

/-- A zero sum is -0.0 only from two negative operands. -/
theorem fSign_fadd_of_zero {a b : F64} (ha : FiniteF64 a) (hb : FiniteF64 b) (h : fInt a + fInt b = 0) :
    fSign (fadd a b) = (fSign a && fSign b) := by
  rw [fadd_finite ha hb, if_pos h, fSign_fZero]

/-- A difference (00_scope R10). -/
theorem nearestEven_fsub {a b : F64} (ha : FiniteF64 a) (hb : FiniteF64 b) :
    NearestEven (fsub a b) (fInt a - fInt b) 1 := by
  have h := nearestEven_fadd ha hb.fneg
  rwa [fInt_fneg, ← sub_eq_add_neg] at h

/-- A zero difference is -0.0 only from a negative operand less one that is not negative. -/
theorem fSign_fsub_of_zero {a b : F64} (ha : FiniteF64 a) (hb : FiniteF64 b) (h : fInt a - fInt b = 0) :
    fSign (fsub a b) = (fSign a && !fSign b) := by
  rw [fsub, fSign_fadd_of_zero ha hb.fneg (by rwa [fInt_fneg, ← sub_eq_add_neg]), fSign_fneg]

/-- A product (00_scope R10). -/
theorem nearestEven_fmul {a b : F64} (ha : FiniteF64 a) (hb : FiniteF64 b) :
    NearestEven (fmul a b) (fInt a * fInt b) fOneUnits := by
  rw [fmul_finite ha hb, fInt, fInt, ← signedInt_mul]
  exact nearestEven_fRound _ fOneUnits_pos

theorem fSign_fmul {a b : F64} (ha : FiniteF64 a) (hb : FiniteF64 b) :
    fSign (fmul a b) = (fSign a != fSign b) := by
  rw [fmul_finite ha hb, fSign_fRound]

/-- The units of a value that is not zero. -/
theorem fUnits_pos {x : F64} (h : fInt x ≠ 0) : 0 < fUnits x := by
  rw [← natAbs_fInt]
  omega

/-- A quotient (00_scope R10). -/
theorem nearestEven_fdiv {a b : F64} (ha : FiniteF64 a) (hb : FiniteF64 b) (h0 : fInt b ≠ 0) :
    NearestEven (fdiv a b) (fInt a * fOneUnits * (fInt b).sign) (fInt b).natAbs := by
  have hu := fUnits_pos h0
  have hn : fInt a * fOneUnits * (fInt b).sign =
      signedInt (fSign a != fSign b) (fUnits a * fOneUnits) := by
    have hone : signedInt false fOneUnits = fOneUnits := rfl
    rw [fInt, fInt, sign_signedInt _ hu, ← hone, ← signedInt_mul, ← signedInt_mul, Bool.bne_false,
      mul_one]
  rw [fdiv_finite ha hb hu.ne', hn, natAbs_fInt]
  exact nearestEven_fRound _ hu

theorem fSign_fdiv {a b : F64} (ha : FiniteF64 a) (hb : FiniteF64 b) (h0 : fInt b ≠ 0) :
    fSign (fdiv a b) = (fSign a != fSign b) := by
  rw [fdiv_finite ha hb (fUnits_pos h0).ne', fSign_fRound]

/-! ## Conversion of integers -/

/-- A conversion (00_scope R12). -/
theorem nearestEven_i2f (n : Int) : NearestEven (i2f n) (n * fOneUnits) 1 := by
  rw [← signedInt_units]
  exact nearestEven_fRound _ Nat.one_pos

/-- At most 2^53 spacings of 2^e units are a whole number of the spacings around them. -/
theorem pow_fScale_dvd {j e : Nat} (hj : j ≤ 2 ^ 53) : 2 ^ fScale (j * 2 ^ e) 1 ∣ j * 2 ^ e := by
  by_cases hk : fScale (j * 2 ^ e) 1 = 0
  · rw [hk]
    exact one_dvd _
  have hbottom : 2 ^ (52 + fScale (j * 2 ^ e) 1) ≤ j * 2 ^ e := by
    have := scaled_le Nat.one_pos hk
    rwa [one_mul, ← pow_add] at this
  rcases hj.eq_or_lt with rfl | hlt
  · rw [← pow_add] at hbottom ⊢
    have := (Nat.pow_le_pow_iff_right (by decide)).1 hbottom
    exact pow_dvd_pow 2 (by omega)
  · have htop : 2 ^ (52 + fScale (j * 2 ^ e) 1) < 2 ^ (53 + e) := by
      rw [pow_add 2 53 e]
      exact hbottom.trans_lt (Nat.mul_lt_mul_of_pos_right hlt (by positivity))
    have := (Nat.pow_lt_pow_iff_right (by decide)).1 htop
    exact Dvd.dvd.mul_left (pow_dvd_pow 2 (by omega)) j

/-- At most 2^53 times a power of two is kept exactly. -/
theorem fUnits_fRound_mul_pow (neg : Bool) {j e : Nat} (hj : j ≤ 2 ^ 53) (he : e ≤ 2044) :
    fUnits (fRound neg (j * 2 ^ e) 1) = j * 2 ^ e := by
  have hpow : 2 ^ e ≤ 2 ^ 2044 := by gcongr; decide
  have hlt : j * 2 ^ e < (2 ^ 54 - 1) * 2 ^ 2044 * 1 := by
    rw [mul_one]
    exact (Nat.mul_le_mul_right _ hj).trans_lt
      (Nat.mul_lt_mul_of_lt_of_le (by decide) hpow (by positivity))
  have hexact := fRound_exact neg Nat.one_pos hlt (by rw [one_mul]; exact pow_fScale_dvd hj)
  rwa [mul_one] at hexact

/-- Integers up to 2^53 are converted exactly (00_scope R12). -/
theorem fInt_i2f {n : Int} (hn : n.natAbs ≤ 2 ^ 53) : fInt (i2f n) = n * fOneUnits := by
  have hexact : fUnits (i2f n) = n.natAbs * fOneUnits := fUnits_fRound_mul_pow _ hn (by decide)
  rw [fInt, hexact, i2f, fSign_fRound, signedInt_units]

/-! ## Comparisons, floor and truncation -/

/-- The absolute value of a pattern that is no NaN has the sign bit cleared (00_scope R10). -/
theorem fabs_of_not_nan {a : F64} (h : fIsNaN a = false) :
    fSign (fabs a) = false ∧ (fabs a).toNat = a.toNat % 2 ^ 63 := by
  have ht : (fabs a).toNat = a.toNat % 2 ^ 63 := by
    rw [fabs, h, if_neg Bool.false_ne_true, BitVec.toNat_and]
    exact Nat.and_two_pow_sub_one_eq_mod a.toNat 63
  refine ⟨?_, ht⟩
  rw [fSign, BitVec.msb_eq_decide, ht, decide_eq_false_iff_not]
  omega

/-- The absolute value keeps the exponent and the fraction. -/
theorem fabs_fields {a : F64} (h : fIsNaN a = false) :
    fExp (fabs a) = fExp a ∧ fFrac (fabs a) = fFrac a := by
  obtain ⟨hs, ht⟩ := fabs_of_not_nan h
  have hparts := toNat_eq_parts a
  have hparts' := toNat_eq_parts (fabs a)
  have hlt := fFrac_lt a
  have hlt' := fFrac_lt (fabs a)
  have hexp := fExp_lt a
  rw [hs] at hparts'
  split_ifs at hparts hparts' <;> omega

/-- Every finite value lies between the infinities (00_scope R12). -/
theorem fLt_of_finite_inf {a b : F64} {neg : Bool} (ha : FiniteF64 a) (hb : fVal b = .inf neg) :
    fLt a b = !neg ∧ fLt b a = neg := by
  simp only [fLt, fVal_finite ha, hb, and_self]

theorem fLt_of_inf_inf {a b : F64} {s t : Bool} (ha : fVal a = .inf s) (hb : fVal b = .inf t) :
    fLt a b = (s && !t) := by
  simp only [fLt, ha, hb]

/-- A comparison with a NaN is false (00_scope R12). -/
theorem fLt_of_nan {a b : F64} (h : fIsNaN a = true ∨ fIsNaN b = true) : fLt a b = false := by
  simp only [fIsNaN, decide_eq_true_eq] at h
  rcases h with h | h
  · simp only [fLt, h]
  · cases ha : fVal a <;> simp only [fLt, h, ha]

theorem lt_div_succ_mul (u : Nat) : u < (u / fOneUnits + 1) * fOneUnits := by
  rw [Nat.add_mul, one_mul]
  exact Nat.lt_div_mul_add fOneUnits_pos

/-- The floor of a finite value that is not negative (00_scope R12). -/
theorem ffloor_spec {x : F64} (h : FiniteF64 x) (h0 : 0 ≤ fInt x) :
    (ffloor x : Int) * fOneUnits ≤ fInt x ∧ fInt x < ((ffloor x : Int) + 1) * fOneUnits := by
  have hu : fInt x = fUnits x := by
    rw [← natAbs_fInt]
    omega
  have hfloor : ffloor x = fUnits x / fOneUnits := by
    cases hs : fSign x with
    | false => exact ffloor_finite h hs
    | true =>
      have hzero : fUnits x = 0 := by
        rw [fInt, hs] at hu
        simp only [signedInt, if_true] at hu
        omega
      simp only [ffloor, fVal_finite h, hs, hzero, if_true, Nat.zero_div]
  rw [hu, hfloor]
  exact ⟨by exact_mod_cast Nat.div_mul_le_self _ _, by exact_mod_cast lt_div_succ_mul _⟩

/-- A quotient of magnitudes keeps on which side of zero the value lies. -/
theorem signedInt_div_side (neg : Bool) (u d : Nat) :
    (0 ≤ signedInt neg u → 0 ≤ signedInt neg (u / d)) ∧
      (signedInt neg u ≤ 0 → signedInt neg (u / d) ≤ 0) := by
  have hle := Nat.div_le_self u d
  generalize u / d = q at *
  cases neg <;> simp only [signedInt, if_true, Bool.false_eq_true, if_false] <;> omega

/-- A finite value is truncated toward zero (00_scope R12). -/
theorem ftrunc_spec {x : F64} (h : FiniteF64 x) :
    (ftrunc x).natAbs * fOneUnits ≤ (fInt x).natAbs ∧
      (fInt x).natAbs < ((ftrunc x).natAbs + 1) * fOneUnits ∧
      (0 ≤ fInt x → 0 ≤ ftrunc x) ∧ (fInt x ≤ 0 → ftrunc x ≤ 0) := by
  rw [natAbs_fInt, ftrunc_finite h, natAbs_signedInt]
  exact ⟨Nat.div_mul_le_self _ _, lt_div_succ_mul _, signedInt_div_side _ _ _⟩

/-! ## Infinities, zero divisors and NaN -/

/-- A pattern is a NaN, the infinity of its sign, or finite. -/
theorem fVal_kinds (x : F64) : fVal x = .nan ∨ fVal x = .inf (fSign x) ∨ FiniteF64 x := by
  unfold fVal
  split_ifs with he hf
  · exact .inr (.inl rfl)
  · exact .inl rfl
  · exact .inr (.inr he)

/-- Each infinity is a single pattern. -/
theorem eq_fInf {x : F64} {neg : Bool} (h : fVal x = .inf neg) : x = fInf neg := by
  have hparts := fPattern_parts x
  unfold fVal at h
  split_ifs at h with he hf
  rw [he, hf, add_zero, FVal.inf.inj h] at hparts
  exact hparts.symm

@[simp] theorem fIsNaN_eq_true (x : F64) : fIsNaN x = true ↔ fVal x = .nan := by simp [fIsNaN]

theorem fIsNaN_of_inf {x : F64} {neg : Bool} (h : fVal x = .inf neg) : fIsNaN x = false := by
  simp [fIsNaN, h]

/-- A rounded value is no NaN. -/
theorem fIsNaN_fRound (neg : Bool) (n d : Nat) : fIsNaN (fRound neg n d) = false := by
  have hle : min (fScale n d * 2 ^ 52 + significand n d) fInfLow ≤ fInfLow := min_le_right _ _
  obtain ⟨-, he, hf⟩ := fPattern_fields neg (hle.trans_lt (by decide))
  rw [Bool.eq_false_iff, Ne, fIsNaN_iff, fRound_eq, he, hf]
  unfold fInfLow at *
  omega

section
variable {a b : F64} {s t : Bool}

/-! An equation per kind of operands (00_scope R10, R11). -/

theorem fadd_of_nan (h : fVal a = .nan ∨ fVal b = .nan) : fadd a b = canonNaN := by
  rcases h with h | h
  · simp only [fadd, h]
  · cases ha : fVal a <;> simp only [fadd, ha, h]

theorem fadd_inf_inf (ha : fVal a = .inf s) (hb : fVal b = .inf t) :
    fadd a b = if s = t then fInf s else canonNaN := by
  simp only [fadd, ha, hb]

theorem fadd_inf_finite (ha : fVal a = .inf s) (hb : FiniteF64 b) : fadd a b = fInf s := by
  simp only [fadd, ha, fVal_finite hb]

theorem fadd_finite_inf (ha : FiniteF64 a) (hb : fVal b = .inf t) : fadd a b = fInf t := by
  simp only [fadd, fVal_finite ha, hb]

theorem fmul_of_nan (h : fVal a = .nan ∨ fVal b = .nan) : fmul a b = canonNaN := by
  rcases h with h | h
  · simp only [fmul, h]
  · cases ha : fVal a <;> simp only [fmul, ha, h]

theorem fmul_inf_inf (ha : fVal a = .inf s) (hb : fVal b = .inf t) : fmul a b = fInf (s != t) := by
  simp only [fmul, ha, hb]

theorem fmul_inf_finite (ha : fVal a = .inf s) (hb : FiniteF64 b) :
    fmul a b = if fUnits b = 0 then canonNaN else fInf (s != fSign b) := by
  simp only [fmul, ha, fVal_finite hb]

theorem fmul_finite_inf (ha : FiniteF64 a) (hb : fVal b = .inf t) :
    fmul a b = if fUnits a = 0 then canonNaN else fInf (fSign a != t) := by
  simp only [fmul, fVal_finite ha, hb]

theorem fdiv_of_nan (h : fVal a = .nan ∨ fVal b = .nan) : fdiv a b = canonNaN := by
  rcases h with h | h
  · simp only [fdiv, h]
  · cases ha : fVal a <;> simp only [fdiv, ha, h]

theorem fdiv_inf_inf (ha : fVal a = .inf s) (hb : fVal b = .inf t) : fdiv a b = canonNaN := by
  simp only [fdiv, ha, hb]

theorem fdiv_inf_finite (ha : fVal a = .inf s) (hb : FiniteF64 b) : fdiv a b = fInf (s != fSign b) := by
  simp only [fdiv, ha, fVal_finite hb]

theorem fdiv_finite_inf (ha : FiniteF64 a) (hb : fVal b = .inf t) : fdiv a b = fZero (fSign a != t) := by
  simp only [fdiv, fVal_finite ha, hb]

/-- A finite value over a zero (60_exceptions R226). -/
theorem fdiv_finite_zero (ha : FiniteF64 a) (hb : fVal b = .fin t 0) :
    fdiv a b = if fUnits a = 0 then canonNaN else fInf (fSign a != t) := by
  simp only [fdiv, fVal_finite ha, hb, if_true]

end

/-- A result is a NaN exactly in the cases P, and then it is CANON_NAN (00_scope R11). -/
structure NaNExactly (r : F64) (P : Prop) : Prop where
  iff : fIsNaN r = true ↔ P
  canonical : fIsNaN r = true → r = canonNaN

theorem NaNExactly.of_canonNaN {r : F64} {P : Prop} (hP : P) (hr : r = canonNaN) : NaNExactly r P :=
  ⟨by simp [hr, hP], fun _ => hr⟩

theorem NaNExactly.of_number {r : F64} {P : Prop} (hP : ¬P) (hr : fIsNaN r = false) : NaNExactly r P :=
  ⟨by simp only [hr, hP, Bool.false_eq_true], fun h => by rw [hr] at h; cases h⟩

@[simp] theorem fIsNaN_fInf (neg : Bool) : fIsNaN (fInf neg) = false := fIsNaN_of_inf (fVal_fInf neg)

@[simp] theorem fIsNaN_fZero (neg : Bool) : fIsNaN (fZero neg) = false := by simp [fIsNaN]

/-- Sums: a NaN operand or opposite infinities. -/
theorem nanExactly_fadd (a b : F64) : NaNExactly (fadd a b)
    (fIsNaN a = true ∨ fIsNaN b = true ∨ ∃ n, fVal a = .inf n ∧ fVal b = .inf (!n)) := by
  rcases fVal_kinds a with ha | ha | ha
  · exact .of_canonNaN (by simp [ha]) (fadd_of_nan (.inl ha))
  · rcases fVal_kinds b with hb | hb | hb
    · exact .of_canonNaN (by simp [hb]) (fadd_of_nan (.inr hb))
    · by_cases hs : fSign a = fSign b
      · exact .of_number (by simp [ha, hb, hs]) (by simp [fadd_inf_inf ha hb, hs])
      · exact .of_canonNaN (by simp [ha, hb, Bool.eq_not.2 (Ne.symm hs)])
          (by rw [fadd_inf_inf ha hb, if_neg hs])
    · exact .of_number (by simp [ha, fVal_finite hb]) (by simp [fadd_inf_finite ha hb])
  · rcases fVal_kinds b with hb | hb | hb
    · exact .of_canonNaN (by simp [hb]) (fadd_of_nan (.inr hb))
    · exact .of_number (by simp [fVal_finite ha, hb]) (by simp [fadd_finite_inf ha hb])
    · refine .of_number (by simp [fVal_finite ha, fVal_finite hb]) ?_
      rw [fadd_finite ha hb]
      split_ifs
      · exact fIsNaN_fZero _
      · exact fIsNaN_fRound _ _ _

/-- Products: a NaN operand or an infinity times a zero. -/
theorem nanExactly_fmul (a b : F64) : NaNExactly (fmul a b)
    (fIsNaN a = true ∨ fIsNaN b = true ∨
      (∃ n m, fVal a = .inf n ∧ fVal b = .fin m 0) ∨ ∃ n m, fVal a = .fin n 0 ∧ fVal b = .inf m) := by
  rcases fVal_kinds a with ha | ha | ha
  · exact .of_canonNaN (by simp [ha]) (fmul_of_nan (.inl ha))
  · rcases fVal_kinds b with hb | hb | hb
    · exact .of_canonNaN (by simp [hb]) (fmul_of_nan (.inr hb))
    · exact .of_number (by simp [ha, hb]) (by simp [fmul_inf_inf ha hb])
    · by_cases h0 : fUnits b = 0
      · exact .of_canonNaN (by simp [ha, fVal_finite hb, h0])
          (by rw [fmul_inf_finite ha hb, if_pos h0])
      · exact .of_number (by simp [ha, fVal_finite hb, h0]) (by simp [fmul_inf_finite ha hb, h0])
  · rcases fVal_kinds b with hb | hb | hb
    · exact .of_canonNaN (by simp [hb]) (fmul_of_nan (.inr hb))
    · by_cases h0 : fUnits a = 0
      · exact .of_canonNaN (by simp [fVal_finite ha, hb, h0])
          (by rw [fmul_finite_inf ha hb, if_pos h0])
      · exact .of_number (by simp [fVal_finite ha, hb, h0]) (by simp [fmul_finite_inf ha hb, h0])
    · exact .of_number (by simp [fVal_finite ha, fVal_finite hb])
        (by rw [fmul_finite ha hb]; exact fIsNaN_fRound _ _ _)

/-- Quotients: a NaN operand, two infinities or two zeros. -/
theorem nanExactly_fdiv (a b : F64) : NaNExactly (fdiv a b)
    (fIsNaN a = true ∨ fIsNaN b = true ∨
      (∃ n m, fVal a = .inf n ∧ fVal b = .inf m) ∨ ∃ n m, fVal a = .fin n 0 ∧ fVal b = .fin m 0) := by
  rcases fVal_kinds a with ha | ha | ha
  · exact .of_canonNaN (by simp [ha]) (fdiv_of_nan (.inl ha))
  · rcases fVal_kinds b with hb | hb | hb
    · exact .of_canonNaN (by simp [hb]) (fdiv_of_nan (.inr hb))
    · exact .of_canonNaN (by simp [ha, hb]) (fdiv_inf_inf ha hb)
    · exact .of_number (by simp [ha, fVal_finite hb]) (by simp [fdiv_inf_finite ha hb])
  · rcases fVal_kinds b with hb | hb | hb
    · exact .of_canonNaN (by simp [hb]) (fdiv_of_nan (.inr hb))
    · exact .of_number (by simp [fVal_finite ha, hb]) (by simp [fdiv_finite_inf ha hb])
    · by_cases hv : fUnits b = 0
      · have hb0 : fVal b = .fin (fSign b) 0 := by rw [fVal_finite hb, hv]
        by_cases hu : fUnits a = 0
        · exact .of_canonNaN (by simp [fVal_finite ha, hb0, hu])
            (by rw [fdiv_finite_zero ha hb0, if_pos hu])
        · exact .of_number (by simp [fVal_finite ha, hb0, hu])
            (by simp [fdiv_finite_zero ha hb0, hu])
      · exact .of_number (by simp [fVal_finite ha, fVal_finite hb, hv])
          (by rw [fdiv_finite ha hb hv]; exact fIsNaN_fRound _ _ _)

/-- The absolute value of a NaN alone is a NaN (00_scope R10). -/
theorem nanExactly_fabs (a : F64) : NaNExactly (fabs a) (fIsNaN a = true) := by
  by_cases h : fIsNaN a = true
  · exact .of_canonNaN h (if_pos h)
  · obtain ⟨he, hf⟩ := fabs_fields (Bool.eq_false_iff.2 h)
    refine .of_number h ?_
    rwa [Bool.eq_false_iff, Ne, fIsNaN_iff, he, hf, ← fIsNaN_iff]

/-- A sum of an infinity and a finite value is that infinity. -/
theorem fadd_inf_absorbs {a b : F64} {n : Bool} (ha : fVal a = .inf n) (hb : FiniteF64 b) :
    fadd a b = a ∧ fadd b a = a :=
  ⟨(fadd_inf_finite ha hb).trans (eq_fInf ha).symm, (fadd_finite_inf hb ha).trans (eq_fInf ha).symm⟩

/-- A product of an infinity and a value that is neither a NaN nor a zero is an infinity. -/
theorem fmul_inf {a b : F64} {n : Bool} (ha : fVal a = .inf n) (hb : fIsNaN b = false)
    (h0 : fVal b ≠ .fin (fSign b) 0) :
    fmul a b = fInf (n != fSign b) ∧ fmul b a = fInf (n != fSign b) := by
  rcases fVal_kinds b with hb' | hb' | hb'
  · simp [fIsNaN, hb'] at hb
  · exact ⟨fmul_inf_inf ha hb', by rw [fmul_inf_inf hb' ha, bne_comm]⟩
  · have hu : fUnits b ≠ 0 := fun hz => h0 (by rw [fVal_finite hb', hz])
    rw [fmul_inf_finite ha hb', fmul_finite_inf hb' ha, if_neg hu, if_neg hu, bne_comm]
    exact ⟨rfl, rfl⟩

end Sys2Proof.Machine
end

section
/-! The statements about binary64 arithmetic, settled. -/

namespace Sys2Proof.Machine

/-- Settles O20: one rounding lemma for `fRound`, and each operation is one rounding of its exact result. -/
theorem arithmeticRoundsOnceToNearestEven : Obligations.ArithmeticRoundsOnceToNearestEven := by
  unfold Obligations.ArithmeticRoundsOnceToNearestEven
  simp only [roundsTo_iff_nearestEven, ← natCast_fOneUnits]
  have hpos : fVal 0x7FF0000000000000 = .inf false := by decide
  have hneg : fVal 0xFFF0000000000000 = .inf true := by decide
  refine ⟨?operations, ?conversion, ?patterns, ?infinities, ?comparisons, ?integers⟩
  case operations =>
    intro a b ha hb
    exact ⟨nearestEven_fadd ha hb, nearestEven_fsub ha hb, nearestEven_fmul ha hb, fSign_fmul ha hb,
      fSign_fadd_of_zero ha hb, fSign_fsub_of_zero ha hb,
      fun h0 => ⟨nearestEven_fdiv ha hb h0, fSign_fdiv ha hb h0⟩⟩
  case conversion => exact fun n => ⟨nearestEven_i2f n, fInt_i2f⟩
  case patterns =>
    intro a
    refine ⟨fIsNaN_iff a, fabs_of_not_nan, fun ha => ?_⟩
    obtain ⟨habove, habove'⟩ := fLt_of_finite_inf ha hpos
    obtain ⟨hbelow, hbelow'⟩ := fLt_of_finite_inf ha hneg
    exact ⟨habove, hbelow', habove', hbelow⟩
  case infinities =>
    exact ⟨fLt_of_inf_inf hneg hpos, fLt_of_inf_inf hpos hneg, fLt_of_inf_inf hpos hpos,
      fLt_of_inf_inf hneg hneg⟩
  case comparisons =>
    exact fun a b => ⟨rfl, fLt_of_nan, fun ha hb => by rw [fLt_finite ha hb, decide_eq_true_eq]⟩
  case integers => exact fun x hx => ⟨ffloor_spec hx, ftrunc_spec hx⟩

/-- Settles O21: the cases of each operation, by the kinds of its operands. -/
theorem nanResultsAreCanonical : Obligations.NanResultsAreCanonical := by
  intro a b
  refine ⟨?canonical, (nanExactly_fadd a b).iff, (nanExactly_fmul a b).iff, (nanExactly_fdiv a b).iff, rfl,
    fun n ha hb => fadd_inf_absorbs ha hb, ?equal, fun n ha hb h0 => fmul_inf ha hb h0, ?quotient, ?zero⟩
  case canonical =>
    simp only [List.forall_mem_cons]
    exact ⟨(nanExactly_fadd a b).canonical, (nanExactly_fadd a (fneg b)).canonical,
      (nanExactly_fmul a b).canonical, (nanExactly_fdiv a b).canonical,
      (nanExactly_fabs a).canonical, nofun⟩
  case equal =>
    intro n ha hb
    rw [fadd_inf_inf ha hb, if_pos rfl, eq_fInf ha]
  case quotient =>
    intro n ha hb
    exact ⟨fdiv_inf_finite ha hb, by rw [fdiv_finite_inf hb ha, bne_comm]⟩
  case zero =>
    intro n ha h0 hb
    rw [fdiv_finite_zero ha hb, if_neg (fUnits_pos h0).ne']

end Sys2Proof.Machine
end

section
/-! The register map and the register port: which register an offset names, what a read of it returns and
what a write of it does (10_state R20 to R49). -/

namespace Sys2Proof.Machine

/-! ## The register map (10_state R21, R22, R40) -/

/-- The place of a field in its slot (10_state R40). -/
def SlotField.offset : SlotField → Nat
  | .volume => 0x00
  | .tlen => 0x08
  | .tcur => 0x10
  | .tfrom => 0x18
  | .tto => 0x20
  | .bufBase => 0x28
  | .bufLen => 0x30

/-- The byte offset of a register (10_state R22, R40). -/
def Reg.offset : Reg → Nat
  | .id => 0x000
  | .cmd => 0x008
  | .status => 0x010
  | .irqEn => 0x018
  | .length => 0x020
  | .bitdepth => 0x028
  | .channels => 0x030
  | .nbuf => 0x038
  | .nrec => 0x040
  | .outBase => 0x048
  | .opa => 0x050
  | .opb => 0x058
  | .opc => 0x060
  | .res => 0x068
  | .pos => 0x070
  | .param => 0x078
  | .slot i f => 0x100 + 0x40 * i + f.offset

theorem slotFieldAt_eq_some_iff {o : Nat} {f : SlotField} : slotFieldAt o = some f ↔ o = f.offset := by
  constructor
  · intro h
    unfold slotFieldAt at h
    split at h <;> cases h <;> rfl
  · rintro rfl
    cases f <;> rfl

theorem SlotField.offset_le (f : SlotField) : f.offset ≤ 0x30 := by cases f <;> decide

/-- The seven fields stand at the first seven words of a slot (10_state R40). -/
theorem exists_slotField {k : Nat} (h : k < 7) : ∃ f : SlotField, f.offset = 8 * k := by
  interval_cases k
  exacts [⟨.volume, rfl⟩, ⟨.tlen, rfl⟩, ⟨.tcur, rfl⟩, ⟨.tfrom, rfl⟩, ⟨.tto, rfl⟩, ⟨.bufBase, rfl⟩,
    ⟨.bufLen, rfl⟩]

theorem slotRegAt_eq_some_iff {c : Config} {o : Nat} {r : Reg} (ho : 0x100 ≤ o) :
    slotRegAt c o = some r ↔ ∃ i f, i < c.maxSources ∧ r = .slot i f ∧ o = 0x100 + 0x40 * i + f.offset := by
  unfold slotRegAt
  constructor
  · intro h
    split_ifs at h with hi
    obtain ⟨f, hf, rfl⟩ := Option.map_eq_some_iff.mp h
    have := slotFieldAt_eq_some_iff.mp hf
    exact ⟨_, f, hi, rfl, by omega⟩
  · rintro ⟨i, f, hi, rfl, rfl⟩
    have hf := f.offset_le
    rw [show (0x100 + 0x40 * i + f.offset - 0x100) / 0x40 = i by omega,
      show (0x100 + 0x40 * i + f.offset - 0x100) % 0x40 = f.offset by omega, if_pos hi,
      slotFieldAt_eq_some_iff.mpr rfl, Option.map_some]

/-- From 0x100 on only slots are mapped. -/
theorem regAtOffset_slot (c : Config) {o : Nat} (ho : 0x100 ≤ o) : regAtOffset c o = slotRegAt c o := by
  unfold regAtOffset
  split
  case h_17 => exact if_neg (by omega)
  all_goals omega

/-- Between the fixed registers and the slots nothing is mapped (10_state R21). -/
theorem regAtOffset_gap (c : Config) {o : Nat} (h : 0x080 ≤ o) (ho : o < 0x100) : regAtOffset c o = none := by
  unfold regAtOffset
  split
  case h_17 => exact if_pos ho
  all_goals omega

/-- A register named by an offset stands at that offset, and a slot register is one of an existing slot. -/
theorem regAtOffset_eq_some {c : Config} {o : Nat} {r : Reg} (h : regAtOffset c o = some r) :
    o = r.offset ∧ ∀ i f, r = .slot i f → i < c.maxSources := by
  by_cases ho : 0x100 ≤ o
  · rw [regAtOffset_slot c ho] at h
    obtain ⟨i, f, hi, rfl, rfl⟩ := (slotRegAt_eq_some_iff ho).mp h
    exact ⟨rfl, by rintro _ _ ⟨⟩; exact hi⟩
  · unfold regAtOffset at h
    split at h
    case h_17 => rw [if_pos (by omega)] at h; cases h
    all_goals cases h; exact ⟨rfl, nofun⟩

/-- The port carries the offset bits 11:3 (10_state R20). -/
theorem regAt_portOf (c : Config) {off : Nat} (hlt : off < 0x1000) (hal : off % 8 = 0) :
    regAt c (portOf off) = regAtOffset c off := by
  rw [regAt, portOf, BitVec.toNat_ofNat, Nat.mod_eq_of_lt (by omega),
    Nat.mul_div_cancel' (Nat.dvd_of_mod_eq_zero hal)]

/-- The port word of a register named by it. -/
theorem regAt_eq_some_port {c : Config} {word : BitVec 9} {r : Reg} (h : regAt c word = some r) :
    word = portOf r.offset := by
  have ho := (regAtOffset_eq_some h).1
  apply BitVec.eq_of_toNat_eq
  rw [portOf, BitVec.toNat_ofNat, ← ho, Nat.mul_div_cancel_left _ (by decide), Nat.mod_eq_of_lt word.isLt]

/-- A field of an existing slot is mapped at its offset (10_state R40). -/
theorem regAt_slotField {c : Config} {i : Nat} (hc : c.maxSources ≤ 60) (hi : i < c.maxSources)
    (f : SlotField) : regAt c (portOf (0x100 + 0x40 * i + f.offset)) = some (.slot i f) := by
  have hf := f.offset_le
  have hal : f.offset % 8 = 0 := by cases f <;> rfl
  rw [regAt_portOf c (by omega) (by omega), regAtOffset_slot c (by omega)]
  exact (slotRegAt_eq_some_iff (by omega)).mpr ⟨i, f, hi, rfl, rfl⟩

/-- The unmapped offsets of 10_state R21. -/
theorem regAtOffset_unmapped {c : Config} {off : Nat}
    (h : (0x080 ≤ off ∧ off ≤ 0x0F8) ∨ (0x100 ≤ off ∧ (off - 0x100) % 0x40 = 0x38) ∨
      (0x100 ≤ off ∧ c.maxSources ≤ (off - 0x100) / 0x40)) : regAtOffset c off = none := by
  rcases h with ⟨hlo, hhi⟩ | ⟨hlo, hres⟩ | ⟨hlo, hmax⟩
  · exact regAtOffset_gap c hlo (by omega)
  · rw [regAtOffset_slot c hlo, slotRegAt, hres]
    split <;> rfl
  · rw [regAtOffset_slot c hlo, slotRegAt, if_neg (by omega)]

/-! ## Slots -/

@[simp] theorem Slot.get_put (x : Slot) (f : SlotField) (v : Word) : (x.put f v).get f = v := by
  cases f <;> rfl

/-- An existing slot holds what was put there. -/
theorem State.slot_setSlot_same {s : State} {i : Nat} (h : i < s.slots.length) (x : Slot) :
    (s.setSlot i x).slot i = x := by simp [State.slot, State.setSlot, h]

/-! ## Reads (10_state R20, R22) -/

@[simp] theorem State.endDuties_regData (s : State) : s.endDuties.regData = s.regData := by
  unfold State.endDuties; split <;> rfl

/-- A read of no register returns 0 (10_state R21). -/
theorem State.readReg_unmapped {s : State} {word : BitVec 9} (h : regAt s.cfg word = none) :
    s.readReg word = { s with regData := 0 } := by rw [State.readReg, h]

/-- A read returns what the register reads as. -/
theorem State.readReg_regData {s : State} {word : BitVec 9} {r : Reg} (h : regAt s.cfg word = some r) :
    (s.readReg word).regData = s.regValue r := by
  rw [State.readReg, h]
  cases r with
  | status => exact State.endDuties_regData _
  | _ => rfl

/-- A read ends duties only when idle (70 R266). -/
theorem State.readReg_duties (s : State) (word : BitVec 9) :
    (s.readReg word).duties = s.duties ∨ (s.phase = .idle ∧ (s.readReg word).duties = []) := by
  unfold State.readReg
  split
  · exact .inl rfl
  · unfold State.endDuties
    split
    · exact .inl rfl
    · next hb => exact .inr ⟨(State.busy_eq_false_iff s).mp (Bool.eq_false_iff.mpr hb), rfl⟩
  · exact .inl rfl

/-! ## Writes (10_state R21, R24, R26, R27, R38) -/

/-- The registers whose write BUSY blocks: all but CMD, STATUS and IRQ_EN (10_state R38). -/
def Reg.guarded : Reg → Bool
  | .cmd | .status | .irqEn => false
  | _ => true

/-- The registers a write never changes (10_state R22). -/
def Reg.readOnly : Reg → Bool
  | .id | .res | .pos | .param => true
  | _ => false

/-- A write to no register is ignored (10_state R21). -/
theorem State.writeReg_unmapped {s : State} {word : BitVec 9} (h : regAt s.cfg word = none) (v : Word) :
    s.writeReg word v = .next s := by rw [State.writeReg, h]

theorem State.writeReg_cmd {s : State} {word : BitVec 9} (h : regAt s.cfg word = some .cmd) (v : Word) :
    s.writeReg word v = s.writeCmd v := by rw [State.writeReg, h]

theorem State.writeReg_status {s : State} {word : BitVec 9} (h : regAt s.cfg word = some .status) (v : Word) :
    s.writeReg word v = .next (s.clearStatus v) := by rw [State.writeReg, h]

theorem State.writeReg_irqEn {s : State} {word : BitVec 9} (h : regAt s.cfg word = some .irqEn) (v : Word) :
    s.writeReg word v = .next { s with irqEn := v.getLsbD 0 } := by rw [State.writeReg, h]

/-- A guarded register takes a write only while idle (10_state R38). -/
theorem State.writeReg_guarded {s : State} {word : BitVec 9} {r : Reg} (h : regAt s.cfg word = some r)
    (hg : r.guarded = true) (v : Word) :
    s.writeReg word v = .next (if s.phase = .idle then s.putReg r v else s) := by
  rw [State.writeReg, h]
  have key : (if s.busy then .next s else .next (s.putReg r v) : Host.Outcome State Fault Refusal) =
      .next (if s.phase = .idle then s.putReg r v else s) := by
    by_cases hp : s.phase = .idle <;> simp [State.busy, hp]
  cases r
  case cmd | status | irqEn => cases hg
  all_goals exact key

/-- While idle a guarded register takes the write. -/
theorem State.writeReg_idle {s : State} {word : BitVec 9} {r : Reg} (h : regAt s.cfg word = some r)
    (hg : r.guarded = true) (hp : s.phase = .idle) (v : Word) :
    s.writeReg word v = .next (s.putReg r v) := by rw [State.writeReg_guarded h hg, if_pos hp]

/-- While BUSY every write but one to CMD, STATUS or IRQ_EN is ignored (10_state R21, R38). -/
theorem State.writeReg_busy {s : State} {word : BitVec 9} (hp : s.phase ≠ .idle)
    (hw : ∀ r, regAt s.cfg word = some r → r.guarded = true) (v : Word) : s.writeReg word v = .next s := by
  cases hr : regAt s.cfg word with
  | none => exact State.writeReg_unmapped hr v
  | some r => rw [State.writeReg_guarded hr (hw r hr), if_neg hp]

/-- A read-only register ignores every write (10_state R22). -/
theorem State.writeReg_readOnly {s : State} {word : BitVec 9} {r : Reg} (h : regAt s.cfg word = some r)
    (hr : r.readOnly = true) (v : Word) : s.writeReg word v = .next s := by
  have hput : r.guarded = true ∧ s.putReg r v = s := by
    cases r
    case id | res | pos | param => exact ⟨rfl, rfl⟩
    all_goals cases hr
  rw [State.writeReg_guarded h hput.1, hput.2, ite_self]

end Sys2Proof.Machine
end

section
/-! What a command and what a step can do, said once: the effects of a command, and the part of the state
that only register writes, the finish of a run and reset change. -/

namespace Sys2Proof.Machine

/-! ## The error reports of a command (60_exceptions R222, R223) -/

/-- An error report of a command: a code of the table, and a slot only with the codes that name one. -/
structure State.Reports (s : State) (c : ErrCode) (slot : Nat) : Prop where
  code_ne : c ≠ .none
  slot_eq : slot = 0 ∨ (0x08 ≤ c.code.toNat ∧ slot < s.cfg.maxSources)

/-- A slot found by a check is below N and fails it. -/
theorem State.firstSlot_some {s : State} {p : Nat → Bool} {i : Nat} (h : s.firstSlot p = some i) :
    i < s.count ∧ p i = true :=
  ⟨List.mem_range.mp (List.mem_of_find?_eq_some h), List.find?_some h⟩

/-- Checks 7 to 9 report a slot below N, with its code (43_mixer R168). -/
theorem State.checkBuffers_some {s : State} {c : ErrCode} {slot : Nat} (h : s.checkBuffers = some (c, slot)) :
    slot < s.count ∧ 0x08 ≤ c.code.toNat := by
  unfold State.checkBuffers at h
  split at h
  · next hf => cases h; exact ⟨(State.firstSlot_some hf).1, by decide⟩
  · split at h
    · next hf => cases h; exact ⟨(State.firstSlot_some hf).1, by decide⟩
    · split at h
      · next hf => cases h; exact ⟨(State.firstSlot_some hf).1, by decide⟩
      · cases h

/-- What a failed validation reports (43_mixer R167). -/
theorem State.mixError_some {s : State} {c : ErrCode} {slot : Nat} (h : s.mixError = some (c, slot)) :
    s.Reports c slot := by
  unfold State.mixError at h
  split_ifs at h with h1 h2
  case neg =>
    obtain ⟨hslot, hcode⟩ := State.checkBuffers_some h
    exact ⟨by rintro rfl; exact absurd hcode (by decide), .inr ⟨hcode, by omega⟩⟩
  all_goals cases h; exact ⟨nofun, .inl rfl⟩

/-- What validation has checked of a MIX that it accepts (43_mixer R167). -/
theorem State.mixError_eq_none_iff (s : State) :
    s.mixError = none ↔
      s.nbuf = s.nrec ∧ s.count ≤ s.cfg.maxSources ∧ s.bitdepth.toNat % 8 = 0 ∧
        widthLegal s.cfg s.bs = true ∧ s.channels.toNat ≠ 0 ∧
        s.inDmem s.outBase.toNat s.len = true ∧ s.checkBuffers = none := by
  unfold State.mixError
  split_ifs <;> simp_all

/-- A legal width is at least one byte. -/
theorem pos_of_widthLegal {c : Config} {w : Nat} (h : widthLegal c w = true) : 0 < w := by
  rcases Nat.eq_zero_or_pos w with rfl | hw
  · cases h
  · exact hw

/-! ## The effects of a command -/

/-- The commands that write RES (10_state R35). -/
abbrev WritesRes (i : Instr) : Prop :=
  (∃ w, i = .dec w) ∨ (∃ w, i = .enc w) ∨ i = .ease ∨ (∃ idx, i = .lutrd idx) ∨ i = .mix2

/-- All that a command can do in s: it is dropped, rejected, or completes with its one effect. -/
inductive CommandEffect (s : State) : Instr → State → Prop
  | dropped {i : Instr} (busy : s.phase ≠ .idle) : CommandEffect s i s.drop
  | rejected {i : Instr} {c : ErrCode} {slot : Nat} (idle : s.phase = .idle) (report : s.Reports c slot) :
      CommandEffect s i (s.accept.raise c slot)
  | nop (idle : s.phase = .idle) : CommandEffect s .nop s.accept.complete
  | result {i : Instr} (idle : s.phase = .idle) (writes : WritesRes i) (v : Word) :
      CommandEffect s i { s.accept with res := v }.complete
  | xstep (idle : s.phase = .idle) (idx : Nat) (x : Slot) :
      CommandEffect s (.xstep idx) (s.accept.setSlot idx x).complete
  | mix (idle : s.phase = .idle) (accepted : s.mixError = none) : CommandEffect s .mix s.accept.acceptMix

/-- The rule each command issues (44_control R201): what it does once accepted. -/
def commandRule : Instr → State → State
  | .nop, a => a.complete
  | .mix, a =>
    match a.mixError with
    | some (c, slot) => a.raise c slot
    | none => a.acceptMix
  | .dec w, a =>
    if widthLegal a.cfg w then { a with res := decodeSample (a.opaSample w) w }.complete
    else a.raise .fmtWidth 0
  | .enc w, a =>
    if widthLegal a.cfg w then { a with res := sampleWord (encodeSample a.opa w) }.complete
    else a.raise .fmtWidth 0
  | .ease, a => { a with res := ease a.cfg a.opa a.opb a.opc }.complete
  | .lutrd idx, a =>
    if idx < a.cfg.tableSize then { a with res := easeTable a.cfg idx }.complete
    else a.raise .illegalCmd 0
  | .mix2, a => { a with res := mixPair a.opa a.opb }.complete
  | .xstep idx, a =>
    if idx < a.cfg.maxSources then
      (a.setSlot idx
        ((a.slot idx).store
          (crossfade a.cfg (a.slot idx).tfrom (a.slot idx).tto (a.slot idx).record))).complete
    else a.raise .illegalCmd 0

theorem exec_eq_issue (i : Instr) (s : State) : exec i s = s.issue (commandRule i) := by
  cases i <;> rfl

/-- A rejection that names no slot. -/
theorem CommandEffect.rejected_zero {s : State} {i : Instr} {c : ErrCode} (idle : s.phase = .idle)
    (hc : c ≠ .none) : CommandEffect s i (s.accept.raise c 0) := .rejected idle ⟨hc, .inl rfl⟩

/-- What each rule does to the accepted state. -/
theorem commandEffect_of_rule (i : Instr) {s : State} (hp : s.phase = .idle) :
    CommandEffect s i (commandRule i s.accept) := by
  cases i with
  | nop => exact .nop hp
  | mix =>
    simp only [commandRule]
    split
    · next he => exact .rejected hp (State.mixError_some (s := s) he)
    · next he => exact .mix hp he
  | dec w =>
    simp only [commandRule]
    split
    exacts [.result hp (.inl ⟨w, rfl⟩) _, .rejected_zero hp nofun]
  | enc w =>
    simp only [commandRule]
    split
    exacts [.result hp (.inr (.inl ⟨w, rfl⟩)) _, .rejected_zero hp nofun]
  | ease => exact .result hp (.inr (.inr (.inl rfl))) _
  | lutrd idx =>
    simp only [commandRule]
    split
    exacts [.result hp (.inr (.inr (.inr (.inl ⟨idx, rfl⟩)))) _, .rejected_zero hp nofun]
  | mix2 => exact .result hp (.inr (.inr (.inr (.inr rfl)))) _
  | xstep idx =>
    simp only [commandRule]
    split
    exacts [.xstep hp idx _, .rejected_zero hp nofun]

theorem commandEffect_of_exec {s t : State} {i : Instr} (h : exec i s = .next t) : CommandEffect s i t := by
  rw [exec_eq_issue] at h
  obtain ⟨hp, rfl⟩ | ⟨hp, rfl⟩ := State.issue_next h
  exacts [.dropped hp, commandEffect_of_rule i hp]

/-! ## What a run and the host's accesses leave alone -/

/-- The parameters, STATUS and the registers but POS, everything else blanked: the part of the state that
only register writes, the finish of a run and reset change. -/
def State.fixedPart (s : State) : State :=
  { s with
    pos := 0, phase := .idle, work := [], beat := 0, held := [], mem := [], inputs := [], regData := 0
    memData := [], duties := [], tainted := false, draws := 0 }

/-- What depends on the fixed part alone is the same where the fixed part is. -/
theorem State.congr_fixedPart {α : Sort*} {s t : State} (h : t.fixedPart = s.fixedPart) (f : State → α)
    (hf : ∀ u : State, f u.fixedPart = f u := by intro; rfl) : f t = f s := by rw [← hf t, h, hf]

theorem State.storeOutput_fixedPart (s : State) (a : Nat) (bytes : List Byte) :
    (s.storeOutput a bytes).fixedPart = s.fixedPart := by rw [State.storeOutput_eq]; rfl

theorem State.readReg_fixedPart (s : State) (word : BitVec 9) :
    (s.readReg word).fixedPart = s.fixedPart := by rw [State.readReg_eq]; rfl

theorem State.hostWrite_fixedPart (s : State) (a : Nat) (bytes : List Byte) :
    (s.hostWrite a bytes).fixedPart = s.fixedPart := by rw [State.hostWrite, State.hostStore_eq]; rfl

theorem State.sampleStep_fixedPart {s t : State} (h : s.sampleStep = .next t) :
    t.fixedPart = s.fixedPart := by
  obtain ⟨bytes, -, -, rfl⟩ := State.sampleStep_next h
  exact s.storeOutput_fixedPart _ bytes

theorem State.sampleByte_fixedPart {s t : State} (h : s.sampleByte = .next t) :
    t.fixedPart = s.fixedPart := by
  obtain ⟨-, bytes, -, -, rfl⟩ | ⟨-, hs⟩ := State.sampleByte_next h
  · exact s.storeOutput_fixedPart _ (bytes.take 1)
  · exact State.sampleStep_fixedPart hs

theorem State.tailStep_fixedPart {s t : State} (h : s.tailStep = .next t) : t.fixedPart = s.fixedPart := by
  obtain ⟨-, rfl⟩ := State.tailStep_next h
  exact s.storeOutput_fixedPart _ _

/-- A run in progress stays one, wherever it stands. -/
theorem State.nextPhase_eq_idle_iff (s : State) : s.nextPhase = .idle ↔ s.phase = .idle := by
  unfold State.nextPhase
  cases s.phase <;> grind

/-- The next run step is a sample step exactly in SAMPLE with a sample left (43_mixer R172). -/
theorem State.nextPhase_eq_sample_iff (s : State) :
    s.nextPhase = .sample ↔ s.phase = .sample ∧ s.hasSample = true := by
  unfold State.nextPhase
  cases s.phase <;> grind

/-- A run step is the finish or leaves the fixed part alone. -/
theorem State.runStep_cases {s t : State} (h : s.runStep = .next t) :
    t.fixedPart = s.fixedPart ∨ (s.phase ≠ .idle ∧ t = s.finishRun) := by
  obtain ⟨-, rfl⟩ | ⟨-, hs⟩ | ⟨-, hs⟩ | ⟨hf, rfl⟩ := State.runStep_next h
  · exact .inl rfl
  · exact .inl (State.sampleStep_fixedPart (s := s.advance) hs)
  · exact .inl (State.tailStep_fixedPart (s := s.advance) hs)
  · refine .inr ⟨fun hp => ?_, rfl⟩
    rw [s.nextPhase_eq_idle_iff.mpr hp] at hf
    cases hf

/-- A single byte of a run ends it or leaves the fixed part alone. -/
theorem State.runByte_cases {s t : State} (h : s.runByte = .next t) :
    t.fixedPart = s.fixedPart ∨ (s.phase ≠ .idle ∧ t = s.finishRun) := by
  obtain ⟨-, hb⟩ | ⟨-, hs⟩ := State.runByte_next h
  · exact .inl (State.sampleByte_fixedPart (s := s.advance) hb)
  · exact State.runStep_cases hs

/-! ## The effects of a step -/

/-- All that a step can do to the fixed part of s: reset and a register write, which say what they do; a
run's finish; else nothing. -/
inductive StepEffect (s : State) : State → Prop
  | reset {lost : Option RegAccess} {rest : List Event} (listed : s.inputs = .reset lost :: rest) :
      StepEffect s { s with inputs := rest }.resetInput
  | write {word : BitVec 9} {v : Word} {rest : List Event} {t : State}
      (listed : s.inputs = .reg (.write word v) :: rest)
      (done : { s with inputs := rest }.writeReg word v = .next t) : StepEffect s t
  | finish {u : State} (busy : s.phase ≠ .idle) (kept : u.fixedPart = s.fixedPart) :
      StepEffect s u.finishRun
  | other {t : State} (kept : t.fixedPart = s.fixedPart) : StepEffect s t

theorem stepEffect_of_step {s t : State} (h : step s = .next t) : StepEffect s t := by
  cases hi : s.inputs with
  | nil =>
    rw [step_empty hi] at h
    obtain hk | ⟨hp, rfl⟩ := State.runStep_cases h
    exacts [.other hk, .finish hp rfl]
  | cons e rest =>
    rw [step_event hi] at h
    cases e with
    | reg a =>
      cases a with
      | write word v => exact .write hi h
      | read word => cases h; exact .other (State.readReg_fixedPart _ word)
    | memWrite a bytes => cases h; exact .other (State.hostWrite_fixedPart _ _ bytes)
    | memRead a n => cases h; exact .other rfl
    | wait =>
      have hread := State.readReg_fixedPart { s with inputs := rest } statusPort
      obtain ⟨hp, u, hu, rfl⟩ | ⟨-, rfl⟩ := State.poll_next h
      · obtain hk | ⟨-, rfl⟩ := State.runStep_cases hu
        · exact .other (hk.trans hread)
        · exact .finish
            (u := { (State.readReg { s with inputs := rest } statusPort) with
              inputs := .wait :: (State.readReg { s with inputs := rest } statusPort).inputs }) hp hread
      · exact .other hread
    | runStep =>
      obtain hk | ⟨hp, rfl⟩ := State.runStep_cases h
      exacts [.other hk, .finish (u := { s with inputs := rest }) hp rfl]
    | runByte =>
      obtain hk | ⟨hp, rfl⟩ := State.runByte_cases h
      exacts [.other hk, .finish (u := { s with inputs := rest }) hp rfl]
    | reset lost => cases h; exact .reset hi

end Sys2Proof.Machine
end

section
/-! The invariant, kept by every step: by each command, by the register port, by the host's accesses, by
each step of a run and by reset. -/

namespace Sys2Proof.Machine

/-! ## DMEM within its size (20_memory R60) -/

/-- DMEM in canonical form that lists only addresses below n. -/
abbrev Memory.FitsIn (m : Memory) (n : Nat) : Prop := Memory.wf m = true ∧ Memory.Below m n

theorem Memory.FitsIn.writeBytes {m : Memory} {n a : Nat} {bs : List Byte} (h : Memory.FitsIn m n)
    (ha : bs = [] ∨ a + bs.length ≤ n) : Memory.FitsIn (Memory.writeBytes m a bs) n :=
  ⟨Memory.wf_writeBytes h.1 a bs, Memory.below_writeBytes h.2 ha⟩

theorem State.inDmem_iff (s : State) (a n : Nat) : s.inDmem a n = true ↔ n = 0 ∨ a + n ≤ s.cfg.memSize := by
  simp [State.inDmem]

/-- Bytes stored inside DMEM keep it within its size. -/
theorem State.MemOk.writeBytes {s : State} (h : s.MemOk) {a : Nat} {bs : List Byte}
    (ha : s.inDmem a bs.length = true) : Memory.FitsIn (Memory.writeBytes s.mem a bs) s.cfg.memSize :=
  Memory.FitsIn.writeBytes h (((s.inDmem_iff _ _).mp ha).imp_left List.eq_nil_of_length_eq_zero)

theorem State.MemOk.storeOutput {s : State} (h : s.MemOk) {a : Nat} {bytes : List Byte}
    (ha : s.inDmem a bytes.length = true) :
    Memory.FitsIn (s.storeOutput a bytes).mem s.cfg.memSize := by
  obtain ⟨bs, hlen, hmem⟩ := s.storeOutput_mem a bytes
  rw [hmem]
  exact h.writeBytes (hlen ▸ ha)

/-- Free bytes drawn for duties inside DMEM keep it within its size. -/
theorem State.MemOk.breaches {s : State} {ds : List Duty} (w : Window) (h : s.MemOk)
    (hds : ∀ d ∈ ds, s.inDmem d.out.base d.out.size = true) :
    Memory.FitsIn (ds.foldl (State.breach w) s).mem s.cfg.memSize := by
  induction ds generalizing s with
  | nil => exact h
  | cons d ds ih =>
    have hcfg : (State.breach w s d).cfg = s.cfg := by rw [State.breach_eq]
    have hd : (State.breach w s d).MemOk := by
      unfold State.breach
      split
      · exact h.writeBytes (by simpa using hds d List.mem_cons_self)
      · exact h
    rw [List.foldl_cons, ← hcfg]
    exact ih hd fun e he => by
      simpa only [State.inDmem, hcfg] using hds e (List.mem_cons_of_mem d he)

/-- A host write stores only where addresses exist. -/
theorem State.MemOk.hostWrite {s : State} (h : s.MemOk) (hds : s.DutiesOk) (a : Nat) (bytes : List Byte) :
    Memory.FitsIn (s.hostWrite a bytes).mem s.cfg.memSize := by
  have hin : s.inDmem a (bytes.take (s.existing a bytes.length)).length = true := by
    rw [State.inDmem_iff, List.length_take, State.existing]
    omega
  exact State.MemOk.breaches
    (s := { s with mem := s.mem.writeBytes a (bytes.take (s.existing a bytes.length)) }) _
    (h.writeBytes hin) hds

/-! ## STATUS (10_state R25) -/

/-- With no error reported STATUS is as R25 leaves it. -/
theorem State.flagsOk_of_clear {t : State} (herr : t.err = false) (hcode : t.errcode = 0)
    (hslot : t.errslot = 0) (hmax : 0 < t.cfg.maxSources) : t.FlagsOk := by
  simp [State.FlagsOk, herr, hcode, hslot, hmax]

/-- Every code but none is a code of the table (60_exceptions R222). -/
theorem ErrCode.code_bounds {c : ErrCode} (h : c ≠ .none) : c.code ≠ 0 ∧ c.code.toNat ≤ 0x0A := by
  cases c with
  | none => exact absurd rfl h
  | _ => decide

/-- A rejected command reports a code of the table, and a slot only with codes that name one. -/
theorem State.Reports.flagsOk {s : State} {c : ErrCode} {slot : Nat} (h : s.Reports c slot)
    (hmax : 0 < s.cfg.maxSources) : (s.accept.raise c slot).FlagsOk := by
  obtain ⟨hne, hslot⟩ := h
  obtain ⟨hcode, hle⟩ := ErrCode.code_bounds hne
  refine ⟨nofun, fun _ => hcode, hle, fun hs => ?_, ?_⟩
  · rcases hslot with rfl | ⟨h8, -⟩
    · exact absurd rfl hs
    · exact h8
  · have : slot < s.cfg.maxSources := by
      rcases hslot with rfl | ⟨-, hlt⟩
      exacts [hmax, hlt]
    exact (Nat.mod_le slot (2 ^ 16)).trans_lt this

theorem State.FlagsOk.clearStatus {s : State} (h : s.FlagsOk) (v : Word) : (s.clearStatus v).FlagsOk := by
  obtain ⟨hdone, herr, hrest⟩ := h
  refine ⟨fun hd => ?_, fun he => herr (Bool.and_elim_left he), hrest⟩
  obtain ⟨he, hc⟩ := hdone (Bool.and_elim_left hd)
  exact ⟨by simp [he], hc⟩

/-! ## The invariant while idle -/

/-- What the invariant says of an idle state. -/
abbrev State.IdleInv (s : State) : Prop :=
  s.ShapeOk ∧ s.FlagsOk ∧ s.MemOk ∧ s.DutiesOk ∧ s.beat = 0 ∧ s.held = [] ∧ s.tainted = false

theorem State.Inv.idle {s : State} (h : s.Inv) (hp : s.phase = .idle) : s.IdleInv := by
  obtain ⟨hshape, hflags, hmem, hduties, -, hheld, hidle, -⟩ := h
  obtain ⟨hbeat, htaint⟩ := hidle hp
  have hnil : s.held = [] := List.eq_nil_of_length_eq_zero (by rw [hheld]; simp [hbeat])
  exact ⟨hshape, hflags, hmem, hduties, hbeat, hnil, htaint⟩

/-- While idle the parts about a run say nothing more. -/
theorem State.IdleInv.inv {s : State} (h : s.IdleInv) (hp : s.phase = .idle) : s.Inv := by
  obtain ⟨hshape, hflags, hmem, hduties, hbeat, hheld, htaint⟩ := h
  refine ⟨hshape, hflags, hmem, hduties, fun hb => absurd hp hb, by simp [hheld, hbeat],
    fun _ => ⟨hbeat, htaint⟩, ?_⟩
  simp [hp]

theorem State.ShapeOk.maxSources_pos {s : State} (h : s.ShapeOk) : 0 < s.cfg.maxSources := h.1.1.1

/-- A register written while idle keeps the invariant. -/
theorem State.IdleInv.putReg {s : State} (h : s.IdleInv) (r : Reg) (v : Word) : (s.putReg r v).IdleInv := by
  cases r with
  | slot i f =>
    obtain ⟨⟨hlegal, hslots, hwork⟩, hrest⟩ := h
    exact ⟨⟨hlegal, (List.length_set ..).trans hslots, hwork⟩, hrest⟩
  | _ => exact h

/-! ## Commands -/

/-- The state right after acceptance of a MIX meets the invariant: its run is one that validation
accepted (43_mixer R170). -/
theorem State.IdleInv.acceptMix {s : State} (h : s.IdleInv) (hok : s.mixError = none) :
    s.accept.acceptMix.Inv := by
  obtain ⟨⟨hlegal, hslots, hwork⟩, hflags, hmem, hduties, hbeat, hheld, htaint⟩ := h
  obtain ⟨-, -, -, hwidth, -, hout, -⟩ := s.mixError_eq_none_iff.mp hok
  have hbs : 0 < s.bs := pos_of_widthLegal hwidth
  refine ⟨⟨hlegal, hslots, (List.length_mapIdx ..).trans hwork⟩,
    State.flagsOk_of_clear rfl rfl rfl hlegal.1.1, hmem, ?duties,
    fun _ => ⟨rfl, rfl, rfl, hok, Nat.zero_mod _, Nat.zero_le _, rfl⟩, rfl, nofun, fun _ => ?sample, nofun,
    nofun⟩
  case duties =>
    intro d hd
    rcases List.mem_cons.mp hd with rfl | hd
    exacts [hout, hduties d hd]
  case sample =>
    rcases Nat.lt_or_ge s.len s.bs with hlt | hge
    · exact .inr ⟨hlt, rfl, rfl⟩
    · exact .inl ⟨(Nat.zero_add s.bs).trans_le hge, hbs⟩

theorem State.IdleInv.rejected {s : State} (h : s.IdleInv) {c : ErrCode} {slot : Nat}
    (hr : s.Reports c slot) : (s.accept.raise c slot).IdleInv := by
  obtain ⟨hshape, -, hrest⟩ := h
  exact ⟨hshape, hr.flagsOk hshape.maxSources_pos, hrest⟩

/-- A command that completes and writes at most RES keeps the invariant. -/
theorem State.IdleInv.completed {s : State} (h : s.IdleInv) (v : Word) :
    ({ s.accept with res := v }.complete).IdleInv := by
  obtain ⟨hshape, -, hrest⟩ := h
  exact ⟨hshape, State.flagsOk_of_clear rfl rfl rfl hshape.maxSources_pos, hrest⟩

theorem CommandEffect.inv {s t : State} {i : Instr} (h : CommandEffect s i t) (hs : s.Inv) : t.Inv := by
  cases h with
  | dropped _ => exact hs
  | rejected hp hr => exact ((hs.idle hp).rejected hr).inv hp
  | nop hp => exact ((hs.idle hp).completed s.res).inv hp
  | result hp _ v => exact ((hs.idle hp).completed v).inv hp
  | xstep hp idx x =>
    obtain ⟨⟨hlegal, hslots, hwork⟩, -, hrest⟩ := hs.idle hp
    exact State.IdleInv.inv
      ⟨⟨hlegal, (List.length_set ..).trans hslots, hwork⟩,
        State.flagsOk_of_clear rfl rfl rfl hlegal.1.1, hrest⟩ hp
  | mix hp hok => exact (hs.idle hp).acceptMix hok

/-! ## The register port -/

theorem State.Inv.writeCmd {s t : State} {v : Word} (hs : s.Inv) (h : s.writeCmd v = .next t) : t.Inv := by
  obtain ⟨-, rfl⟩ | ⟨-, i, -, he⟩ | ⟨hp, -, -, rfl⟩ := State.writeCmd_next h
  · exact hs
  · exact (commandEffect_of_exec he).inv hs
  · exact ((hs.idle hp).rejected (c := .illegalCmd) ⟨nofun, .inl rfl⟩).inv hp

theorem State.Inv.clearStatus {s : State} (hs : s.Inv) (v : Word) : (s.clearStatus v).Inv := by
  obtain ⟨hshape, hflags, hmem, hduties, hrun, hphase⟩ := hs
  refine ⟨hshape, hflags.clearStatus v, hmem, hduties, fun hp => ?_, hphase⟩
  obtain ⟨hdone, herr, hrest⟩ := hrun hp
  exact ⟨by simp [hdone], by simp [herr], hrest⟩

theorem State.Inv.writeReg {s t : State} {word : BitVec 9} {v : Word} (hs : s.Inv)
    (h : s.writeReg word v = .next t) : t.Inv := by
  obtain ⟨-, rfl⟩ | ⟨-, hc⟩ | ⟨-, rfl⟩ | ⟨-, rfl⟩ | ⟨r, -, -, -, -, ⟨-, rfl⟩ | ⟨hp, rfl⟩⟩ :=
    State.writeReg_next h
  · exact hs
  · exact hs.writeCmd hc
  · exact hs.clearStatus v
  · exact hs
  · exact hs
  · have hput : (s.putReg r v).phase = .idle := by cases r <;> exact hp
    exact ((hs.idle hp).putReg r v).inv hput

theorem State.Inv.readReg {s : State} (hs : s.Inv) (word : BitVec 9) : (s.readReg word).Inv := by
  obtain ⟨hshape, hflags, hmem, hduties, hrun, hphase⟩ := hs
  rw [State.readReg_eq]
  obtain hd | ⟨hp, hd⟩ := s.readReg_duties word
  · rw [hd]
    exact ⟨hshape, hflags, hmem, hduties, hrun, hphase⟩
  · rw [hd]
    exact ⟨hshape, hflags, hmem, nofun, fun hb => absurd hp hb, hphase⟩

/-! ## The host's DMEM accesses -/

theorem State.Inv.hostWrite {s : State} (hs : s.Inv) (a : Nat) (bytes : List Byte) :
    (s.hostWrite a bytes).Inv := by
  obtain ⟨hshape, hflags, hmem, hduties, hrun, hheld, hidle, hphase⟩ := hs
  have hfits := hmem.hostWrite hduties a bytes
  rw [State.hostWrite] at hfits ⊢
  rw [State.hostStore_eq]
  refine ⟨hshape, hflags, hfits, hduties, hrun, hheld, fun hp => ?_, hphase⟩
  obtain ⟨hbeat, htaint⟩ := hidle hp
  have hbusy : s.busy = false := (State.busy_eq_false_iff s).mpr hp
  exact ⟨hbeat, by simp [htaint, State.breaksRun, hbusy]⟩

/-! ## The steps of a run (43_mixer R172 to R178) -/

/-- A run's move keeps the invariant if POS, PHASE, the bytes held and DMEM still agree. -/
theorem State.Inv.run_move {s t : State} (hs : s.Inv) (hb : s.phase ≠ .idle)
    (hfix : t.fixedPart = s.fixedPart) (hwork : t.work.length = s.work.length)
    (hduties : t.duties = s.duties) (hmem : Memory.FitsIn t.mem s.cfg.memSize)
    (hpos : t.pos.toNat % s.bs = 0 ∧ t.pos.toNat ≤ s.req) (hphase : t.PhaseOk) : t.Inv := by
  obtain ⟨⟨hlegal, hslots, hw⟩, hflags, -, hds, hrun, -⟩ := hs
  obtain ⟨hdone, herr, hcode, hok, -, -, hhead⟩ := hrun hb
  have hcfg : t.cfg = s.cfg := State.congr_fixedPart hfix State.cfg
  have hts : t.slots = s.slots := State.congr_fixedPart hfix State.slots
  have hbs : t.bs = s.bs := State.congr_fixedPart hfix State.bs
  have hreq : t.req = s.req := State.congr_fixedPart hfix State.req
  have hduty : t.runDuty = s.runDuty := State.congr_fixedPart hfix State.runDuty
  have htf : t.FlagsOk = s.FlagsOk := State.congr_fixedPart hfix State.FlagsOk
  refine ⟨⟨hcfg ▸ hlegal, by rw [hts, hcfg, hslots], by rw [hwork, hcfg, hw]⟩, htf ▸ hflags, ?mem, ?duties,
    fun _ => ⟨(State.congr_fixedPart hfix State.done).trans hdone, (State.congr_fixedPart hfix State.err).trans herr,
      (State.congr_fixedPart hfix State.errcode).trans hcode, (State.congr_fixedPart hfix State.mixError).trans hok,
      hbs ▸ hpos.1, hreq ▸ hpos.2, by rw [hduties, hduty, hhead]⟩, hphase⟩
  case mem =>
    rw [State.MemOk, hcfg]
    exact hmem
  case duties =>
    intro d hd
    rw [State.inDmem, hcfg]
    exact hds d (hduties ▸ hd)

theorem State.req_le_len (s : State) : s.req ≤ s.len := Nat.div_mul_le_self ..

/-- A whole number of samples within LENGTH is within REQ. -/
theorem State.le_req {s : State} {p : Nat} (hmod : p % s.bs = 0) (hle : p ≤ s.len) : p ≤ s.req := by
  rw [← Nat.div_mul_cancel (Nat.dvd_of_mod_eq_zero hmod)]
  exact Nat.mul_le_mul_right _ (Nat.div_le_div_right hle)

/-- A whole number of samples with no sample left is REQ (43_mixer R172). -/
theorem State.eq_req {s : State} {p : Nat} (hmod : p % s.bs = 0) (hle : p ≤ s.len)
    (hlt : s.len < p + s.bs) : p = s.req := by
  refine (State.le_req hmod hle).antisymm ?_
  obtain ⟨k, rfl⟩ := Nat.dvd_of_mod_eq_zero hmod
  rw [State.req, Nat.mul_comm s.bs k]
  refine Nat.mul_le_mul_right _ (Nat.le_of_lt_succ ((Nat.div_lt_iff_lt_mul ?_).mpr ?_))
  · omega
  · rw [Nat.succ_mul, Nat.mul_comm k]
    exact hlt

/-- PHASE agrees in the middle of a sample's write or before it (20_memory R74). -/
theorem State.phaseOk_of_sample {u : State} (hp : u.phase = .sample)
    (hheld : u.held.length = if u.beat ≠ 0 then u.bs - u.beat else 0) (hle : u.pos.toNat + u.bs ≤ u.len)
    (hlt : u.beat < u.bs) : u.PhaseOk := by
  simp [State.PhaseOk, hp, hheld, hle, hlt]

/-- PHASE agrees with a tail byte still to write (43_mixer R176). -/
theorem State.phaseOk_of_tail {u : State} (hp : u.phase = .tail) (hheld : u.held = [])
    (hpos : u.pos.toNat = u.req) (hlt : u.req + u.beat < u.len) : u.PhaseOk := by
  simp [State.PhaseOk, hp, hheld, hpos, hlt]

/-- PHASE agrees with every byte written (43_mixer R176). -/
theorem State.phaseOk_of_finish {u : State} (hp : u.phase = .finish) (hheld : u.held = [])
    (hpos : u.pos.toNat = u.req) (heq : u.req + u.beat = u.len) : u.PhaseOk := by
  simp [State.PhaseOk, hp, hheld, hpos, heq]

/-- PHASE agrees once no sample is left (43_mixer R176). -/
theorem State.phaseOk_advance_tail {u : State} (hn : u.nextPhase = if u.hasTail then .tail else .finish)
    (hheld : u.held = []) (hpos : u.pos.toNat = u.req) (hle : u.req + u.beat ≤ u.len) :
    u.advance.PhaseOk := by
  by_cases ht : u.hasTail = true
  · have hlt : u.pos.toNat + u.beat < u.len := of_decide_eq_true ht
    rw [if_pos ht] at hn
    exact State.phaseOk_of_tail (u := u.advance) hn hheld hpos (hpos ▸ hlt)
  · have hge : ¬ u.pos.toNat + u.beat < u.len := of_decide_eq_false (Bool.eq_false_iff.mpr ht)
    rw [if_neg ht] at hn
    exact State.phaseOk_of_finish (u := u.advance) hn hheld hpos
      (hle.antisymm (Nat.le_of_not_lt (hpos ▸ hge)))

/-- PHASE agrees after the move from SAMPLE, between samples (43_mixer R172). -/
theorem State.phaseOk_advance_sample {u : State} (hp : u.phase = .sample) (hbs : 0 < u.bs)
    (hbeat : u.beat = 0) (hheld : u.held = []) (hmod : u.pos.toNat % u.bs = 0) (hle : u.pos.toNat ≤ u.len) :
    u.advance.PhaseOk := by
  have hn : u.nextPhase = if u.hasSample then .sample else if u.hasTail then .tail else .finish := by
    rw [State.nextPhase, hp]
  by_cases hs : u.hasSample = true
  · rw [if_pos hs] at hn
    exact State.phaseOk_of_sample (u := u.advance) hn (by simp [hbeat, hheld]) (of_decide_eq_true hs)
      (hbeat ▸ hbs)
  · have hlt : ¬ u.pos.toNat + u.bs ≤ u.len := of_decide_eq_false (Bool.eq_false_iff.mpr hs)
    rw [if_neg hs] at hn
    refine State.phaseOk_advance_tail hn hheld (State.eq_req hmod hle (Nat.lt_of_not_le hlt)) ?_
    rw [hbeat]
    exact u.req_le_len

theorem State.advance_of_nextPhase {s : State} (h : s.nextPhase = s.phase) : s.advance = s := by
  rw [State.advance, h]

/-- A run in progress has samples of at least one byte. -/
theorem State.Inv.bs_pos {s : State} (hs : s.Inv) (hb : s.phase ≠ .idle) : 0 < s.bs := by
  obtain ⟨-, -, -, -, hrun, -⟩ := hs
  obtain ⟨-, -, -, hok, -⟩ := hrun hb
  obtain ⟨-, -, -, hwidth, -⟩ := s.mixError_eq_none_iff.mp hok
  exact pos_of_widthLegal hwidth

/-- POS of a run in progress is a whole number of samples up to REQ. -/
theorem State.Inv.pos_ok {s : State} (hs : s.Inv) (hb : s.phase ≠ .idle) :
    s.pos.toNat % s.bs = 0 ∧ s.pos.toNat ≤ s.req := by
  obtain ⟨-, -, -, -, hrun, -⟩ := hs
  obtain ⟨-, -, -, -, hmod, hle, -⟩ := hrun hb
  exact ⟨hmod, hle⟩

/-- The run moved to where it stands keeps the invariant. -/
theorem State.Inv.advance {s : State} (hs : s.Inv) : s.advance.Inv := by
  have hbs := hs.bs_pos
  have hpos := hs.pos_ok
  have hs' := hs
  obtain ⟨-, -, hmem, -, -, hheld, -, hsample, htail, -⟩ := hs'
  cases hp : s.phase with
  | idle =>
    rw [State.advance_of_nextPhase (by rw [State.nextPhase, hp])]
    exact hs
  | finish =>
    rw [State.advance_of_nextPhase (by rw [State.nextPhase, hp])]
    exact hs
  | tail =>
    have ht : s.hasTail = true := by
      obtain ⟨hreq, hlt⟩ := htail hp
      exact decide_eq_true (by omega)
    rw [State.advance_of_nextPhase (by rw [State.nextPhase, hp, ht]; rfl)]
    exact hs
  | sample =>
    have hb : s.phase ≠ .idle := by rw [hp]; nofun
    obtain ⟨hle, -⟩ | ⟨-, hzero, hbeat⟩ := hsample hp
    · have hhas : s.hasSample = true := decide_eq_true hle
      rw [State.advance_of_nextPhase (by rw [State.nextPhase, hp, hhas]; rfl)]
      exact hs
    · have hnil : s.held = [] := List.eq_nil_of_length_eq_zero (by rw [hheld]; simp [hbeat])
      exact hs.run_move hb rfl rfl rfl hmem (hpos hb)
        (State.phaseOk_advance_sample hp (hbs hb) hbeat hnil (hpos hb).1 (by omega))

@[simp] theorem length_toLE (w n : Nat) : (toLE w n).length = w := by
  induction w generalizing n with
  | zero => rfl
  | succ w ih => simp [toLE, ih]

@[simp] theorem State.length_sampleBytes (s : State) : s.sampleBytes.length = s.bs := length_toLE ..

@[simp] theorem State.length_crossfadePhase (s : State) : s.crossfadePhase.length = s.work.length := by
  unfold State.crossfadePhase
  split <;> simp

/-- The end of a sample step keeps the invariant, whatever bytes of DMEM it stored. -/
theorem State.Inv.endSample {s : State} (hs : s.Inv) (hp : s.phase = .sample) (hhas : s.hasSample = true)
    {w : List Work} (hw : w.length = s.work.length) {m : Memory} (hm : Memory.FitsIn m s.cfg.memSize)
    (d : Nat) : (State.endSample w { s with mem := m, draws := d }).Inv := by
  have hb : s.phase ≠ .idle := by rw [hp]; nofun
  have hle : s.pos.toNat + s.bs ≤ s.len := of_decide_eq_true hhas
  have hlt : s.len < 2 ^ 32 := s.length.isLt
  have hpos : (BitVec.ofNat 32 (s.pos.toNat + s.bs)).toNat = s.pos.toNat + s.bs := by
    rw [BitVec.toNat_ofNat, Nat.mod_eq_of_lt (by omega)]
  have hmod : (BitVec.ofNat 32 (s.pos.toNat + s.bs)).toNat % s.bs = 0 := by
    rw [hpos, Nat.add_mod_right, (hs.pos_ok hb).1]
  rw [← hpos] at hle
  refine hs.run_move hb rfl hw rfl hm ⟨hmod, State.le_req hmod hle⟩ ?phase
  case phase =>
    exact State.phaseOk_advance_sample
      (u := { s with
        mem := m, draws := d, work := w, pos := BitVec.ofNat 32 (s.pos.toNat + s.bs), beat := 0, held := [] })
      hp (hs.bs_pos hb) rfl rfl hmod hle

theorem State.Inv.sampleStep {s t : State} (hs : s.Inv) (hp : s.phase = .sample)
    (hhas : s.hasSample = true) (h : s.sampleStep = .next t) : t.Inv := by
  obtain ⟨bytes, -, hin, rfl⟩ := State.sampleStep_next h
  have hs' := hs
  obtain ⟨-, -, hmem, -⟩ := hs'
  rw [State.storeOutput_eq]
  exact hs.endSample hp hhas s.length_crossfadePhase (hmem.storeOutput hin) _

theorem State.Inv.sampleByte {s t : State} (hs : s.Inv) (hp : s.phase = .sample)
    (hhas : s.hasSample = true) (h : s.sampleByte = .next t) : t.Inv := by
  obtain ⟨hnext, bytes, hbytes, hin, rfl⟩ | ⟨-, hstep⟩ := State.sampleByte_next h
  · have hb : s.phase ≠ .idle := by rw [hp]; nofun
    have hpos := hs.pos_ok hb
    have hs' := hs
    obtain ⟨-, -, hmem, -, -, hheld, -⟩ := hs'
    have hlen : bytes.length = s.bs - s.beat := by
      obtain ⟨hbeat, -, rfl⟩ | ⟨hbeat, rfl⟩ := hbytes
      · rw [s.length_sampleBytes, hbeat, Nat.sub_zero]
      · rw [hheld, if_pos ⟨hp, hbeat⟩]
    rw [State.storeOutput_eq]
    refine hs.run_move hb rfl rfl rfl (hmem.storeOutput hin) hpos
      (State.phaseOk_of_sample hp ?held (of_decide_eq_true hhas) hnext)
    case held =>
      rw [State.endByte_held, List.length_drop, hlen, State.endByte_beat, if_pos (Nat.succ_ne_zero _)]
      exact Nat.sub_sub _ _ _
  · exact hs.sampleStep hp hhas hstep

theorem State.Inv.tailStep {s t : State} (hs : s.Inv) (hp : s.phase = .tail)
    (h : s.tailStep = .next t) : t.Inv := by
  obtain ⟨hin, rfl⟩ := State.tailStep_next h
  have hb : s.phase ≠ .idle := by rw [hp]; nofun
  have hpos := hs.pos_ok hb
  have hs' := hs
  obtain ⟨-, -, hmem, -, -, hheld, -, -, htail, -⟩ := hs'
  obtain ⟨hreq, hlt⟩ := htail hp
  have hnil : s.held = [] := List.eq_nil_of_length_eq_zero (by rw [hheld, hp]; rfl)
  rw [State.storeOutput_eq]
  exact hs.run_move hb rfl rfl rfl (hmem.storeOutput hin) hpos
    (State.phaseOk_advance_tail (u := { s with mem := _, draws := _, beat := s.beat + 1 })
      (by rw [State.nextPhase, hp]) hnil hreq hlt)

theorem State.Inv.finishRun {s : State} (hs : s.Inv) (hb : s.phase ≠ .idle) : s.finishRun.Inv := by
  obtain ⟨⟨hlegal, hslots, hwork⟩, ⟨-, -, hcodes⟩, hmem, hduties, hrun, -⟩ := hs
  obtain ⟨-, herr, hcode, -⟩ := hrun hb
  refine State.IdleInv.inv ⟨⟨hlegal, (List.length_mapIdx ..).trans hslots, hwork⟩,
    ⟨fun _ => ⟨herr, hcode⟩, fun he => ?_, hcodes⟩, hmem, hduties, rfl, rfl, rfl⟩ rfl
  rw [State.finishRun_err, herr] at he
  cases he

theorem State.Inv.runStep {s t : State} (hs : s.Inv) (h : s.runStep = .next t) : t.Inv := by
  obtain ⟨-, rfl⟩ | ⟨hn, hstep⟩ | ⟨hn, hstep⟩ | ⟨hn, rfl⟩ := State.runStep_next h
  · exact hs
  · obtain ⟨hp, hhas⟩ := s.nextPhase_eq_sample_iff.mp hn
    exact hs.advance.sampleStep hn hhas hstep
  · exact hs.advance.tailStep hn hstep
  · exact hs.finishRun fun hp => by rw [s.nextPhase_eq_idle_iff.mpr hp] at hn; cases hn

theorem State.Inv.runByte {s t : State} (hs : s.Inv) (h : s.runByte = .next t) : t.Inv := by
  obtain ⟨hn, hstep⟩ | ⟨-, hstep⟩ := State.runByte_next h
  · obtain ⟨hp, hhas⟩ := s.nextPhase_eq_sample_iff.mp hn
    exact hs.advance.sampleByte hn hhas hstep
  · exact hs.runStep hstep

/-! ## Reset and a step -/

theorem inv_powerOn {c : Config} (h : c.Legal) : (State.powerOn c).Inv :=
  State.IdleInv.inv
    ⟨⟨h, List.length_replicate, List.length_replicate⟩, State.flagsOk_of_clear rfl rfl rfl h.1.1,
      ⟨rfl, nofun⟩, nofun, rfl, rfl, rfl⟩ rfl

theorem State.Inv.resetInput {s : State} (hs : s.Inv) : s.resetInput.Inv := by
  obtain ⟨⟨hlegal, -⟩, -, hmem, -⟩ := hs
  obtain ⟨hshape, hflags, -, hrest⟩ := inv_powerOn hlegal
  exact ⟨hshape, hflags, hmem, hrest⟩

/-- Every event keeps the invariant. -/
theorem State.Inv.perform {s t : State} {e : Event} (hs : s.Inv) (h : s.perform e = .next t) : t.Inv := by
  cases e with
  | reg a =>
    cases a with
    | write word v => exact hs.writeReg h
    | read word => cases h; exact hs.readReg word
  | memWrite a bytes => cases h; exact hs.hostWrite _ bytes
  | memRead a n => cases h; exact hs
  | wait =>
    obtain ⟨-, u, hu, rfl⟩ | ⟨-, rfl⟩ := State.poll_next h
    · have hinv : u.Inv := (hs.readReg statusPort).runStep hu
      exact hinv
    · exact hs.readReg statusPort
  | runStep => exact hs.runStep h
  | runByte => exact hs.runByte h
  | reset lost => cases h; exact hs.resetInput

theorem State.Inv.step {s t : State} (hs : s.Inv) (h : step s = .next t) : t.Inv := by
  cases hi : s.inputs with
  | nil => exact hs.runStep (step_empty hi ▸ h)
  | cons e rest => exact State.Inv.perform (s := { s with inputs := rest }) hs (step_event hi ▸ h)

/-! ## The parameters -/

theorem CommandEffect.cfg {s t : State} {i : Instr} (h : CommandEffect s i t) : t.cfg = s.cfg := by
  cases h <;> rfl

theorem State.writeReg_cfg {s t : State} {word : BitVec 9} {v : Word} (h : s.writeReg word v = .next t) :
    t.cfg = s.cfg := by
  obtain ⟨-, rfl⟩ | ⟨-, hc⟩ | ⟨-, rfl⟩ | ⟨-, rfl⟩ | ⟨r, -, -, -, -, ⟨-, rfl⟩ | ⟨-, rfl⟩⟩ :=
    State.writeReg_next h
  · rfl
  · obtain ⟨-, rfl⟩ | ⟨-, i, -, he⟩ | ⟨-, -, -, rfl⟩ := State.writeCmd_next hc
    exacts [rfl, (commandEffect_of_exec he).cfg, rfl]
  · rfl
  · rfl
  · rfl
  · cases r <;> rfl

/-- No step changes the parameters (00_scope R6). -/
theorem step_cfg {s t : State} (h : step s = .next t) : t.cfg = s.cfg := by
  cases stepEffect_of_step h with
  | reset _ => rfl
  | write _ hw => exact (State.writeReg_cfg hw).trans rfl
  | finish _ hk => exact State.congr_fixedPart hk State.cfg
  | other hk => exact State.congr_fixedPart hk State.cfg

end Sys2Proof.Machine
end

section
/-! What the effects of a command and of a step leave of each register; the words that STATUS, PARAM and the
32-bit registers read as; the word of MIX. -/

namespace Sys2Proof.Machine

/-! ## Commands and register writes, register by register -/

/-- Only the commands of 10_state R35 change RES, and they complete. -/
theorem CommandEffect.res {s t : State} {i : Instr} (h : CommandEffect s i t) (hne : t.res ≠ s.res) :
    WritesRes i ∧ t.done = true ∧ t.err = false := by
  cases h with
  | result _ hi _ => exact ⟨hi, rfl, rfl⟩
  | _ => exact absurd rfl hne

/-- Only XSTEP changes a slot (10_state R48). -/
theorem CommandEffect.slots {s t : State} {i : Instr} (h : CommandEffect s i t) (hne : t.slots ≠ s.slots) :
    ∃ idx, i = .xstep idx := by
  cases h with
  | xstep _ idx _ => exact ⟨idx, rfl⟩
  | _ => exact absurd rfl hne

/-- No command changes the operands (10_state R34). -/
theorem CommandEffect.operands {s t : State} {i : Instr} (h : CommandEffect s i t) :
    t.opa = s.opa ∧ t.opb = s.opb ∧ t.opc = s.opc := by
  cases h <;> exact ⟨rfl, rfl, rfl⟩

/-- An accepted command reports DONE or ERR, or starts a run (60_exceptions R241). -/
theorem CommandEffect.reports_or_runs {s t : State} {i : Instr} (h : CommandEffect s i t)
    (hp : s.phase = .idle) :
    t.irqEn = s.irqEn ∧ ((t.done = true ∨ t.err = true) ∨ (i = .mix ∧ t.phase = .sample)) := by
  cases h with
  | dropped hb => exact absurd hp hb
  | rejected => exact ⟨rfl, .inl (.inr rfl)⟩
  | mix => exact ⟨rfl, .inr ⟨rfl, rfl⟩⟩
  | _ => exact ⟨rfl, .inl (.inl rfl)⟩

theorem State.putReg_res (s : State) (r : Reg) (v : Word) : (s.putReg r v).res = s.res := by
  cases r <;> rfl

/-- A register write that changes RES is a CMD write of a word that spells one of its commands (10_state
R35). -/
theorem State.writeReg_res {s t : State} {word : BitVec 9} {v : Word} (h : s.writeReg word v = .next t)
    (hne : t.res ≠ s.res) :
    word = portOf 0x008 ∧ s.phase = .idle ∧
      ∃ i, decode v = .command i ∧ WritesRes i ∧ t.done = true ∧ t.err = false := by
  obtain ⟨-, rfl⟩ | ⟨hw, hc⟩ | ⟨-, rfl⟩ | ⟨-, rfl⟩ | ⟨r, -, -, -, -, ⟨-, rfl⟩ | ⟨-, rfl⟩⟩ :=
    State.writeReg_next h
  case inr.inl =>
    obtain ⟨-, rfl⟩ | ⟨hp, i, hi, he⟩ | ⟨-, -, -, rfl⟩ := State.writeCmd_next hc
    · exact absurd rfl hne
    · exact ⟨regAt_eq_some_port hw, hp, i, hi, (commandEffect_of_exec he).res hne⟩
    · exact absurd rfl hne
  case inr.inr.inr.inr.inr => exact absurd (s.putReg_res r v) hne
  all_goals exact absurd rfl hne

/-- A register write that changes a slot is, while idle, one to a slot register or a CMD write that spells
XSTEP (10_state R48). -/
theorem State.writeReg_slots {s t : State} {word : BitVec 9} {v : Word} (h : s.writeReg word v = .next t)
    (hne : t.slots ≠ s.slots) :
    s.phase = .idle ∧
      ((∃ i f, regAt s.cfg word = some (.slot i f)) ∨
        (word = portOf 0x008 ∧ ∃ idx, decode v = .command (.xstep idx))) := by
  obtain ⟨-, rfl⟩ | ⟨hw, hc⟩ | ⟨-, rfl⟩ | ⟨-, rfl⟩ | ⟨r, hr, -, -, -, ⟨-, rfl⟩ | ⟨hp, rfl⟩⟩ :=
    State.writeReg_next h
  case inr.inl =>
    obtain ⟨-, rfl⟩ | ⟨hp, i, hi, he⟩ | ⟨-, -, -, rfl⟩ := State.writeCmd_next hc
    · exact absurd rfl hne
    · obtain ⟨idx, rfl⟩ := (commandEffect_of_exec he).slots hne
      exact ⟨hp, .inr ⟨regAt_eq_some_port hw, idx, hi⟩⟩
    · exact absurd rfl hne
  case inr.inr.inr.inr.inr =>
    cases r with
    | slot i f => exact ⟨hp, .inl ⟨i, f, hr⟩⟩
    | _ => exact absurd rfl hne
  all_goals exact absurd rfl hne

/-- The registers that a run reads and that BUSY protects (10_state R38). -/
def State.runRegisters (s : State) :=
  (s.length, s.bitdepth, s.channels, s.nbuf, s.nrec, s.outBase, s.opa, s.opb, s.opc, s.slots)

/-- While BUSY no register write changes them (10_state R38). -/
theorem State.writeReg_runRegisters {s t : State} {word : BitVec 9} {v : Word} (hb : s.phase ≠ .idle)
    (h : s.writeReg word v = .next t) : t.runRegisters = s.runRegisters := by
  obtain ⟨-, rfl⟩ | ⟨-, hc⟩ | ⟨-, rfl⟩ | ⟨-, rfl⟩ | ⟨r, -, -, -, -, ⟨-, rfl⟩ | ⟨hp, -⟩⟩ :=
    State.writeReg_next h
  case inr.inl =>
    obtain ⟨-, rfl⟩ | ⟨hp, -⟩ | ⟨hp, -⟩ := State.writeCmd_next hc
    exacts [rfl, absurd hp hb, absurd hp hb]
  case inr.inr.inr.inr.inr => exact absurd hp hb
  all_goals rfl

/-- No step of a run that goes on changes them. -/
theorem step_runRegisters {s t : State} (hb : s.phase ≠ .idle) (h : step s = .next t)
    (ht : t.phase ≠ .idle) : t.runRegisters = s.runRegisters := by
  cases stepEffect_of_step h with
  | reset _ => exact absurd rfl ht
  | @write _ _ rest _ _ hw => exact State.writeReg_runRegisters (s := { s with inputs := rest }) hb hw
  | finish _ _ => exact absurd rfl ht
  | other hk => exact State.congr_fixedPart hk State.runRegisters

/-! ## STATUS, PARAM and the 32-bit registers as words -/

theorem getLsbD_eq_decide (v : Word) (i : Nat) : v.getLsbD i = decide (v.toNat / 2 ^ i % 2 = 1) := by
  rw [← BitVec.testBit_toNat, Nat.testBit_eq_decide_div_mod_eq]

/-- A flag cleared where the written bit is 1 (10_state R26). -/
theorem clearedBy_eq (b : Bool) (v : Word) (i : Nat) :
    (b && !v.getLsbD i) = if v.toNat / 2 ^ i % 2 = 1 then false else b := by
  rw [getLsbD_eq_decide]
  split_ifs with h <;> simp [h]

/-- Four flags in bits 3:0 (10_state R25). -/
theorem toNat_flagBits (b0 b1 b2 b3 : Bool) :
    (flagBit b0 0 ||| flagBit b1 1 ||| flagBit b2 2 ||| flagBit b3 3).toNat =
      (if b0 then 1 else 0) + (if b1 then 2 else 0) + (if b2 then 4 else 0) + (if b3 then 8 else 0) := by
  revert b0 b1 b2 b3
  decide

/-- STATUS is the sum of its fields (10_state R25). -/
theorem State.toNat_statusWord (s : State) :
    s.statusWord.toNat =
      (if s.busy then 1 else 0) + (if s.done then 2 else 0) + (if s.err then 4 else 0) +
        (if s.dropped then 8 else 0) + 2 ^ 8 * s.errcode.toNat + 2 ^ 16 * s.errslot.toNat := by
  have hflags := toNat_flagBits s.busy s.done s.err s.dropped
  have hcode := s.errcode.isLt
  have hslot := s.errslot.isLt
  have hsmall : (if s.busy then 1 else 0) + (if s.done then 2 else 0) + (if s.err then 4 else 0) +
      (if s.dropped then 8 else 0) < 2 ^ 8 := by split_ifs <;> omega
  simp only [State.statusWord, BitVec.toNat_or, BitVec.toNat_shiftLeft, BitVec.toNat_setWidth] at hflags ⊢
  rw [hflags, Nat.mod_eq_of_lt (by omega : s.errcode.toNat < 2 ^ 64),
    Nat.mod_eq_of_lt (by omega : s.errslot.toNat < 2 ^ 64),
    Nat.mod_eq_of_lt (by rw [Nat.shiftLeft_eq]; omega), Nat.mod_eq_of_lt (by rw [Nat.shiftLeft_eq]; omega),
    Nat.or_comm _ (_ <<< 8), ← Nat.shiftLeft_add_eq_or_of_lt hsmall, Nat.or_comm,
    ← Nat.shiftLeft_add_eq_or_of_lt (by rw [Nat.shiftLeft_eq]; omega)]
  simp only [Nat.shiftLeft_eq]
  omega

/-- PARAM is the sum of its fields (10_state R37). -/
theorem toNat_paramWord {c : Config} (h : c.Legal) :
    (paramWord c).toNat = c.maxSources + (if c.support24 then 2 ^ 8 else 0) + 2 ^ 16 * c.tableSize := by
  obtain ⟨⟨-, hmax⟩, -, ⟨-, htable⟩⟩ := h
  have hbit : (BitVec.ofBool c.support24).toNat = if c.support24 then 1 else 0 := by
    cases c.support24 <;> rfl
  have hbit2 : (BitVec.ofBool c.support24).toNat < 2 ^ 1 := (BitVec.ofBool c.support24).isLt
  simp only [paramWord, BitVec.toNat_append, BitVec.toNat_ofNat]
  rw [Nat.mod_eq_of_lt (by omega : c.maxSources < 2 ^ 8), Nat.mod_eq_of_lt (by omega : c.tableSize < 2 ^ 16),
    ← Nat.shiftLeft_add_eq_or_of_lt (by omega : c.maxSources < 2 ^ 8), ← Nat.shiftLeft_add_eq_or_of_lt hbit2,
    ← Nat.shiftLeft_add_eq_or_of_lt (by decide : 0 % 2 ^ 7 < 2 ^ 7),
    ← Nat.shiftLeft_add_eq_or_of_lt (by omega : c.tableSize < 2 ^ 16), hbit]
  simp only [Nat.shiftLeft_eq]
  split_ifs <;> omega

/-- The low half of a word, zero-extended (10_state R39). -/
theorem setWidth_low_half (v : Word) : (v.setWidth 32).setWidth 64 = v &&& 0x00000000FFFFFFFF := by
  apply BitVec.eq_of_toNat_eq
  rw [BitVec.toNat_and, show (0x00000000FFFFFFFF : Word).toNat = 2 ^ 32 - 1 from rfl,
    Nat.and_two_pow_sub_one_eq_mod, BitVec.toNat_setWidth, BitVec.toNat_setWidth]
  omega

theorem State.putReg_cfg (s : State) (r : Reg) (v : Word) : (s.putReg r v).cfg = s.cfg := by
  cases r <;> rfl

/-- A guarded register written while idle reads back what it now holds. -/
theorem State.write_then_read {s : State} {word : BitVec 9} {r : Reg} (h : regAt s.cfg word = some r)
    (hg : r.guarded = true) (hp : s.phase = .idle) (v : Word) :
    ∃ t, s.writeReg word v = .next t ∧ (t.readReg word).regData = (s.putReg r v).regValue r :=
  ⟨_, State.writeReg_idle h hg hp v, State.readReg_regData (by rw [State.putReg_cfg, h])⟩

/-! ## The command word and the CMD register -/

theorem decode_eq_command_iff {v : Word} {i : Instr} :
    decode v = .command i ↔ ∃ f, opcodeRow v = some (f, i) ∧ wordRsv v = 0 ∧ f.admits v = true := by
  unfold decode
  split
  · next h => simp [h]
  · next f j h => split_ifs <;> simp_all

/-- A word is its four fields (30_encoding R80). -/
theorem toNat_eq_fields (v : Word) :
    v.toNat = wordRsv v * 2 ^ 32 + wordIdx v * 2 ^ 16 + wordW v * 2 ^ 8 + wordOp v := by
  have hv := v.isLt
  simp only [wordOp, wordW, wordIdx, wordRsv, BitVec.extractLsb'_toNat, Nat.shiftRight_eq_div_pow]
  omega

theorem opcodeRow_mix {v : Word} {f : Format} (h : opcodeRow v = some (f, .mix)) : f = .c0 ∧ wordOp v = 0x01 := by
  unfold opcodeRow at h
  split at h <;> cases h
  next ho => exact ⟨rfl, ho⟩

/-- The one word of MIX (30_encoding R89). -/
theorem eq_one_of_decode_mix {v : Word} (h : decode v = .command .mix) : v = 0x01 := by
  obtain ⟨f, hrow, hrsv, hadm⟩ := decode_eq_command_iff.mp h
  obtain ⟨rfl, hop⟩ := opcodeRow_mix hrow
  obtain ⟨hw, hidx⟩ : wordW v = 0 ∧ wordIdx v = 0 := by simpa [Format.admits] using hadm
  apply BitVec.eq_of_toNat_eq
  rw [toNat_eq_fields, hrsv, hidx, hw, hop]
  rfl

/-- What each field of a well-formed command's word holds (30_encoding R81). -/
theorem encode_fields (i : Instr) : Laws.EncodedFields.Statement i := by
  cases i with
  | nop => exact Laws.EncodedFields.nop
  | mix => exact Laws.EncodedFields.mix
  | dec w => exact Laws.EncodedFields.dec w
  | enc w => exact Laws.EncodedFields.enc w
  | ease => exact Laws.EncodedFields.ease
  | lutrd idx => exact Laws.EncodedFields.lutrd idx
  | mix2 => exact Laws.EncodedFields.mix2
  | xstep idx => exact Laws.EncodedFields.xstep idx

/-- The word of a well-formed command decodes to it (30_encoding R81, R82). -/
theorem decode_encode {i : Instr} (h : i.WellFormed) : decode (encode i) = .command i := by
  obtain ⟨hop, hw, hidx, hrsv⟩ := encode_fields i h
  rw [decode_eq_command_iff]
  cases i <;> simp [opcodeRow, Format.admits, hop, hw, hidx, hrsv, Instr.opcode, Instr.fieldW, Instr.fieldIdx]

/-- A write of a command's word to CMD is that command, dropped while BUSY like it (44_control R200,
R202). -/
theorem State.writeCmd_command (s : State) {v : Word} {i : Instr} (h : decode v = .command i) :
    s.writeCmd v = exec i s := by
  rw [State.writeCmd, h]
  split
  · next hb => rw [exec_eq_issue, State.issue_busy ((State.busy_iff s).mp hb)]
  · rfl

/-- The step that takes a CMD write off the list runs its command. -/
theorem step_command {s : State} {v : Word} {i : Instr} {rest : List Event}
    (hs : s.inputs = .reg (.write (portOf 0x008) v) :: rest) (h : decode v = .command i) :
    step s = exec i { s with inputs := rest } :=
  (step_event hs).trans (State.writeCmd_command _ h)

end Sys2Proof.Machine
end

section
/-! WORK that no run in progress uses is never observable (10_state R51, 70 R261): every operation on a state
with other such entries gives the same outcome but for such entries. -/

namespace Sys2Proof.Machine

/-- The state with other contents of WORK. -/
def State.withWork (s : State) (w : List Work) : State := { s with work := w }

/-- As many entries, and the same ones below n. -/
def AgreesBelow (n : Nat) (v w : List Work) : Prop := v.length = w.length ∧ ∀ i < n, v[i]? = w[i]?

/-- w differs from WORK only where no run in progress uses it. -/
def State.AgreesInUse (s : State) (w : List Work) : Prop :=
  w.length = s.work.length ∧ (s.phase ≠ .idle → ∀ i < s.count, w[i]? = s.work[i]?)

/-- The second outcome is the first but for WORK that no run in progress uses. -/
def SameButUnused (o o' : Host.Outcome State Fault Refusal) : Prop :=
  ∀ t, o = .next t → ∃ w, o' = .next (t.withWork w) ∧ t.AgreesInUse w

theorem AgreesBelow.inUse {s : State} {w : List Work} (h : AgreesBelow s.count w s.work) : s.AgreesInUse w :=
  ⟨h.1, fun _ => h.2⟩

theorem State.AgreesInUse.below {s : State} {w : List Work} (h : s.AgreesInUse w) (hb : s.phase ≠ .idle) :
    AgreesBelow s.count w s.work := ⟨h.1, h.2 hb⟩

/-- While idle no entry is in use. -/
theorem State.agreesInUse_of_idle {s : State} {w : List Work} (hp : s.phase = .idle)
    (hlen : w.length = s.work.length) : s.AgreesInUse w := ⟨hlen, fun hb => absurd hp hb⟩

theorem SameButUnused.next {t : State} {w : List Work} (h : t.AgreesInUse w) :
    SameButUnused (.next t) (.next (t.withWork w)) := by
  rintro _ ⟨⟩
  exact ⟨w, rfl, h⟩

/-! ## WORK through the crossfade and the acceptance of a MIX -/

theorem AgreesBelow.mapIdx {n : Nat} {v w : List Work} (h : AgreesBelow n v w) (f : Nat → Work → Work) :
    AgreesBelow n (v.mapIdx f) (w.mapIdx f) := by
  obtain ⟨hlen, hget⟩ := h
  exact ⟨by simp [hlen], fun i hi => by simp [hget i hi]⟩

/-- Entries that are written anew agree, whatever they were (43_mixer R170). -/
theorem agreesBelow_mapIdx_of_const {n : Nat} {v w : List Work} (hlen : v.length = w.length)
    {f : Nat → Work → Work} (hf : ∀ i < n, ∀ r r', f i r = f i r') :
    AgreesBelow n (v.mapIdx f) (w.mapIdx f) := by
  refine ⟨by simp [hlen], fun i hi => ?_⟩
  rw [List.getElem?_mapIdx, List.getElem?_mapIdx]
  by_cases hv : i < v.length
  · rw [List.getElem?_eq_getElem hv, List.getElem?_eq_getElem (hlen ▸ hv)]
    exact congrArg some (hf i hi _ _)
  · rw [List.getElem?_eq_none (Nat.le_of_not_lt hv), List.getElem?_eq_none (hlen ▸ Nat.le_of_not_lt hv)]

theorem AgreesBelow.getD {n : Nat} {v w : List Work} (h : AgreesBelow n v w) {i : Nat} (hi : i < n) (r : Work) :
    v.getD i r = w.getD i r := by
  rw [List.getD_eq_getElem?_getD, List.getD_eq_getElem?_getD, h.2 i hi]

section
variable {s : State} {w : List Work}

theorem AgreesBelow.crossfadePhase (h : AgreesBelow s.count w s.work) :
    AgreesBelow s.count (s.withWork w).crossfadePhase s.crossfadePhase := by
  by_cases hf : s.pos.toNat % s.ss = 0
  · have hw : (s.withWork w).crossfadePhase = w.mapIdx _ := if_pos hf
    have hs : s.crossfadePhase = s.work.mapIdx _ := if_pos hf
    rw [hw, hs]
    exact h.mapIdx _
  · have hw : (s.withWork w).crossfadePhase = w := if_neg hf
    have hs : s.crossfadePhase = s.work := if_neg hf
    rwa [hw, hs]

/-- The sample is computed from the entries in use alone (43_mixer R174). -/
theorem AgreesBelow.sampleBytes (h : AgreesBelow s.count w s.work) :
    (s.withWork w).sampleBytes = s.sampleBytes := by
  have hvalue : ∀ i ∈ List.range s.count,
      (s.withWork w).sourceValue (s.withWork w).crossfadePhase i = s.sourceValue s.crossfadePhase i := by
    intro i hi
    exact congrArg (fun r : Work => fmul _ r.vol) (h.crossfadePhase.getD (List.mem_range.mp hi) _)
  have hacc : (s.withWork w).sampleAcc = s.sampleAcc :=
    congrArg mixFold (List.map_congr_left hvalue)
  exact congrArg (encodeSample · s.bs) hacc

/-- The write-back takes the entries in use alone (43_mixer R178). -/
theorem AgreesBelow.finishRun (h : AgreesBelow s.count w s.work) :
    (s.withWork w).finishRun = s.finishRun.withWork w := by
  have hslots : (s.withWork w).finishRun.slots = s.finishRun.slots := by
    simp only [State.finishRun_slots]
    refine congrArg (s.slots.mapIdx ·) (funext fun i => funext fun x => ?_)
    change (if i < s.count then x.store (w.getD i _) else x) = if i < s.count then x.store (s.workAt i) else x
    split_ifs with hi
    · exact congrArg x.store (h.getD hi _)
    · rfl
  exact congrArg (fun l => { s.finishRun.withWork w with slots := l }) hslots

/-! ## The steps of a run -/

/-- The bytes that a step of s still has to write: computed before the first, held after (20_memory R74). -/
abbrev State.Loads (s : State) (bytes : List Byte) : Prop :=
  (s.beat = 0 ∧ s.readOutside = none ∧ bytes = s.sampleBytes) ∨ (s.beat ≠ 0 ∧ bytes = s.held)

theorem State.runLoad_of_loads {bytes : List Byte} (h : s.Loads bytes)
    (k : List Byte → Host.Outcome State Fault Refusal) : s.runLoad k = k bytes := by
  unfold State.runLoad
  obtain ⟨hb, hr, rfl⟩ | ⟨hb, rfl⟩ := h
  · rw [if_pos hb, hr]
  · rw [if_neg hb]

theorem State.storeOutput_withWork (a : Nat) (bytes : List Byte) :
    (s.withWork w).storeOutput a bytes = (s.storeOutput a bytes).withWork w := by
  cases ht : s.tainted with
  | true =>
    rw [State.storeOutput_tainted ht, State.storeOutput_tainted (s := s.withWork w) ht]
    rfl
  | false =>
    rw [State.storeOutput_clean ht, State.storeOutput_clean (s := s.withWork w) ht]
    rfl

/-- A run's store does not look at WORK. -/
theorem State.runStore_withWork {bytes : List Byte} (hd : s.inDmem s.outAddr bytes.length = true)
    (k : State → State) :
    (s.withWork w).runStore bytes k = .next (k ((s.storeOutput s.outAddr bytes).withWork w)) := by
  rw [← State.storeOutput_withWork]
  exact if_pos hd

theorem AgreesBelow.loads (h : AgreesBelow s.count w s.work) {bytes : List Byte} (hl : s.Loads bytes) :
    (s.withWork w).Loads bytes := by
  obtain ⟨hb, hr, rfl⟩ | hheld := hl
  · exact .inl ⟨hb, hr, h.sampleBytes.symm⟩
  · exact .inr hheld

theorem AgreesBelow.sampleStep (h : AgreesBelow s.count w s.work) :
    SameButUnused s.sampleStep (s.withWork w).sampleStep := by
  intro t ht
  obtain ⟨bytes, hl, hd, rfl⟩ := State.sampleStep_next ht
  refine ⟨(s.withWork w).crossfadePhase,
    (State.runLoad_of_loads (h.loads hl) _).trans (State.runStore_withWork hd _), AgreesBelow.inUse ?_⟩
  rw [State.storeOutput_eq]
  exact h.crossfadePhase

theorem AgreesBelow.sampleByte (h : AgreesBelow s.count w s.work) :
    SameButUnused s.sampleByte (s.withWork w).sampleByte := by
  intro t ht
  obtain ⟨hn, bytes, hl, hd, rfl⟩ | ⟨hn, hstep⟩ := State.sampleByte_next ht
  · refine ⟨w, (if_pos hn).trans ((State.runLoad_of_loads (h.loads hl) _).trans
      (State.runStore_withWork hd _)), AgreesBelow.inUse ?_⟩
    rw [State.storeOutput_eq]
    exact h
  · obtain ⟨w', hw', huse⟩ := h.sampleStep t hstep
    exact ⟨w', (if_neg hn).trans hw', huse⟩

theorem AgreesBelow.tailStep (h : AgreesBelow s.count w s.work) :
    SameButUnused s.tailStep (s.withWork w).tailStep := by
  intro t ht
  obtain ⟨hd, rfl⟩ := State.tailStep_next ht
  refine ⟨w, (State.runStore_withWork hd _).trans ?_, AgreesBelow.inUse ?_⟩
  · have hbeat : (s.storeOutput s.outAddr [0x00]).beat = s.beat := by rw [State.storeOutput_eq]
    rw [← hbeat]
    rfl
  · rw [State.storeOutput_eq]
    exact h

/-- A run step, told from where the run stands (43_mixer R172 to R178). -/
theorem State.runStep_eq (s : State) :
    (s.nextPhase = .sample → s.runStep = s.advance.sampleStep) ∧
      (s.nextPhase = .tail → s.runStep = s.advance.tailStep) ∧
      (s.nextPhase = .finish → s.runStep = .next s.finishRun) := by
  unfold State.runStep
  exact ⟨fun h => by rw [h], fun h => by rw [h], fun h => by rw [h]⟩

theorem State.runByte_eq (s : State) :
    (s.nextPhase = .sample → s.runByte = s.advance.sampleByte) ∧
      (s.nextPhase ≠ .sample → s.runByte = s.runStep) := by
  unfold State.runByte
  refine ⟨fun h => by rw [h], fun h => ?_⟩
  split
  · next hp => exact absurd hp h
  all_goals rfl

theorem State.AgreesInUse.runStep (h : s.AgreesInUse w) : SameButUnused s.runStep (s.withWork w).runStep := by
  by_cases hp : s.phase = .idle
  · rw [State.runStep_idle hp, State.runStep_idle (s := s.withWork w) hp]
    exact .next h
  · have hbelow := h.below hp
    obtain ⟨hsample, htail, hfinish⟩ := s.runStep_eq
    obtain ⟨hsample', htail', hfinish'⟩ := (s.withWork w).runStep_eq
    cases hn : s.nextPhase with
    | idle => exact absurd (s.nextPhase_eq_idle_iff.mp hn) hp
    | sample =>
      rw [hsample hn, hsample' hn]
      exact AgreesBelow.sampleStep (s := s.advance) hbelow
    | tail =>
      rw [htail hn, htail' hn]
      exact AgreesBelow.tailStep (s := s.advance) hbelow
    | finish =>
      rw [hfinish hn, hfinish' hn, hbelow.finishRun]
      exact .next (State.agreesInUse_of_idle rfl h.1)

theorem State.AgreesInUse.runByte (h : s.AgreesInUse w) : SameButUnused s.runByte (s.withWork w).runByte := by
  obtain ⟨hsample, hother⟩ := s.runByte_eq
  obtain ⟨hsample', hother'⟩ := (s.withWork w).runByte_eq
  by_cases hn : s.nextPhase = .sample
  · have hp : s.phase ≠ .idle := by
      rw [(s.nextPhase_eq_sample_iff.mp hn).1]
      nofun
    rw [hsample hn, hsample' hn]
    exact AgreesBelow.sampleByte (s := s.advance) (h.below hp)
  · rw [hother hn, hother' hn]
    exact h.runStep

/-! ## Commands and the register port -/

/-- No command but MIX looks at WORK. -/
theorem commandRule_withWork {i : Instr} (hi : i ≠ .mix) (a : State) :
    commandRule i (a.withWork w) = (commandRule i a).withWork w := by
  cases i with
  | mix => exact absurd rfl hi
  | nop | ease | mix2 => rfl
  | dec _ | enc _ | lutrd _ | xstep _ =>
    simp only [commandRule, apply_ite (State.withWork · w)]
    rfl

/-- MIX loads the entries that its run will use (43_mixer R170). -/
theorem agreesInUse_mix (hp : s.phase = .idle) (hlen : w.length = s.work.length) :
    ∃ w', commandRule .mix (s.withWork w) = (commandRule .mix s).withWork w' ∧
      (commandRule .mix s).AgreesInUse w' := by
  have herr : (s.withWork w).mixError = s.mixError := rfl
  simp only [commandRule, herr]
  cases s.mixError with
  | none =>
    refine ⟨(s.withWork w).acceptMix.work, rfl, AgreesBelow.inUse ?_⟩
    refine agreesBelow_mapIdx_of_const hlen fun i hi r r' => ?_
    exact (if_pos hi).trans (if_pos hi).symm
  | some e => exact ⟨w, rfl, State.agreesInUse_of_idle hp hlen⟩

/-- No command but MIX changes WORK or PHASE. -/
theorem CommandEffect.agreesInUse {i : Instr} {t : State} (h : CommandEffect s i t) (hi : i ≠ .mix)
    (hw : s.AgreesInUse w) : t.AgreesInUse w := by
  cases h with
  | mix => exact absurd rfl hi
  | _ => exact hw

theorem State.AgreesInUse.exec (h : s.AgreesInUse w) (i : Instr) :
    SameButUnused (exec i s) (exec i (s.withWork w)) := by
  rw [exec_eq_issue, exec_eq_issue]
  by_cases hp : s.phase = .idle
  · rw [State.issue_idle hp, State.issue_idle (s := s.withWork w) hp]
    by_cases hi : i = .mix
    · subst hi
      obtain ⟨w', hrule, huse⟩ := agreesInUse_mix (s := s.accept) hp h.1
      rw [show (s.withWork w).accept = s.accept.withWork w from rfl, hrule]
      exact .next huse
    · rw [show (s.withWork w).accept = s.accept.withWork w from rfl, commandRule_withWork hi]
      exact .next ((commandEffect_of_rule i hp).agreesInUse hi h)
  · rw [State.issue_busy hp, State.issue_busy (s := s.withWork w) hp]
    exact .next (t := s.drop) h

theorem State.AgreesInUse.writeCmd (h : s.AgreesInUse w) (v : Word) :
    SameButUnused (s.writeCmd v) ((s.withWork w).writeCmd v) := by
  cases hd : decode v with
  | command i =>
    rw [State.writeCmd_command _ hd, State.writeCmd_command _ hd]
    exact h.exec i
  | illegal e =>
    intro t ht
    obtain ⟨hb, rfl⟩ | ⟨-, i, hi, -⟩ | ⟨hp, -, -, rfl⟩ := State.writeCmd_next ht
    · exact ⟨w, if_pos ((State.busy_iff s).mpr hb), h⟩
    · rw [hd] at hi
      cases hi
    · refine ⟨w, ?_, h⟩
      have hidle : (s.withWork w).busy ≠ true := fun hb => (State.busy_iff s).mp hb hp
      rw [State.writeCmd, if_neg hidle, hd]
      rfl

theorem State.putReg_withWork (r : Reg) (v : Word) :
    (s.withWork w).putReg r v = (s.putReg r v).withWork w := by
  cases r <;> rfl

theorem State.AgreesInUse.writeReg (h : s.AgreesInUse w) (word : BitVec 9) (v : Word) :
    SameButUnused (s.writeReg word v) ((s.withWork w).writeReg word v) := by
  cases hr : regAt s.cfg word with
  | none =>
    rw [State.writeReg_unmapped hr, State.writeReg_unmapped (s := s.withWork w) hr]
    exact .next h
  | some r =>
    cases hg : r.guarded with
    | true =>
      by_cases hp : s.phase = .idle
      · rw [State.writeReg_idle hr hg hp, State.writeReg_idle (s := s.withWork w) hr hg hp,
          State.putReg_withWork]
        refine .next (State.agreesInUse_of_idle ?_ ?_)
        · cases r <;> exact hp
        · cases r <;> exact h.1
      · have hp' : (s.withWork w).phase ≠ .idle := hp
        rw [State.writeReg_guarded hr hg, State.writeReg_guarded (s := s.withWork w) hr hg, if_neg hp,
          if_neg hp']
        exact .next h
    | false =>
      cases r with
      | cmd =>
        rw [State.writeReg_cmd hr, State.writeReg_cmd (s := s.withWork w) hr]
        exact h.writeCmd v
      | status =>
        rw [State.writeReg_status hr, State.writeReg_status (s := s.withWork w) hr]
        exact .next (t := s.clearStatus v) h
      | irqEn =>
        rw [State.writeReg_irqEn hr, State.writeReg_irqEn (s := s.withWork w) hr]
        exact .next (t := { s with irqEn := v.getLsbD 0 }) h
      | _ => cases hg

theorem State.readReg_withWork (word : BitVec 9) :
    (s.withWork w).readReg word = (s.readReg word).withWork w := by
  have hend (u : State) : (u.withWork w).endDuties = u.endDuties.withWork w := by
    have hbusy : (u.withWork w).busy = u.busy := rfl
    rw [State.endDuties, State.endDuties, hbusy, apply_ite (State.withWork · w)]
    rfl
  cases hr : regAt s.cfg word with
  | none => rw [State.readReg_unmapped hr, State.readReg_unmapped (s := s.withWork w) hr]; rfl
  | some r =>
    have hr' : regAt (s.withWork w).cfg word = some r := hr
    rw [State.readReg, State.readReg, hr, hr']
    cases r with
    | status => exact hend { s with regData := s.statusWord }
    | _ => rfl

theorem State.AgreesInUse.readReg (h : s.AgreesInUse w) (word : BitVec 9) :
    (s.readReg word).AgreesInUse w := by
  rw [State.readReg_eq]
  exact h

/-! ## The host's DMEM accesses, and a step -/

theorem State.breaches_withWork (v : Window) (u : State) (ds : List Duty) :
    ds.foldl (State.breach v) (u.withWork w) = (ds.foldl (State.breach v) u).withWork w :=
  List.foldl_hom (State.withWork · w) fun u d => by
    unfold State.breach
    split <;> rfl

theorem State.hostStore_withWork (a : Nat) (bytes : List Byte) :
    (s.withWork w).hostStore a bytes = (s.hostStore a bytes).withWork w :=
  congrArg (fun u : State => { u with tainted := s.tainted || s.breaksRun ⟨a, bytes.length⟩ })
    (State.breaches_withWork ⟨a, bytes.length⟩ { s with mem := s.mem.writeBytes a bytes } s.duties)

theorem State.hostWrite_withWork (a : Nat) (bytes : List Byte) :
    (s.withWork w).hostWrite a bytes = (s.hostWrite a bytes).withWork w :=
  State.hostStore_withWork a (bytes.take (s.existing a bytes.length))

theorem State.AgreesInUse.hostWrite (h : s.AgreesInUse w) (a : Nat) (bytes : List Byte) :
    (s.hostWrite a bytes).AgreesInUse w := by
  rw [State.hostWrite, State.hostStore_eq]
  exact h

theorem State.AgreesInUse.poll (h : s.AgreesInUse w) : SameButUnused s.poll (s.withWork w).poll := by
  intro t ht
  obtain ⟨hb, u, hu, rfl⟩ | ⟨hp, rfl⟩ := State.poll_next ht
  · obtain ⟨w', hw', huse⟩ := (h.readReg statusPort).runStep u hu
    refine ⟨w', ?_, huse⟩
    have hbusy : (s.withWork w).busy = true := (State.busy_iff s).mpr hb
    rw [State.poll, if_pos hbusy, State.readReg_withWork, hw']
    rfl
  · refine ⟨w, ?_, h.readReg statusPort⟩
    have hidle : (s.withWork w).busy ≠ true := fun hb => (State.busy_iff s).mp hb hp
    rw [State.poll, if_neg hidle, State.readReg_withWork]

theorem State.AgreesInUse.perform (h : s.AgreesInUse w) (e : Event) :
    SameButUnused (s.perform e) ((s.withWork w).perform e) := by
  cases e with
  | reg a =>
    cases a with
    | write word v => exact h.writeReg word v
    | read word =>
      change SameButUnused (.next (s.readReg word)) (.next ((s.withWork w).readReg word))
      rw [State.readReg_withWork]
      exact .next (h.readReg word)
  | memWrite a bytes =>
    change SameButUnused (.next (s.hostWrite a.toNat bytes)) (.next ((s.withWork w).hostWrite a.toNat bytes))
    rw [State.hostWrite_withWork]
    exact .next (h.hostWrite _ bytes)
  | memRead a n => exact .next (t := s.hostRead a.toNat n) h
  | wait => exact h.poll
  | runStep => exact h.runStep
  | runByte => exact h.runByte
  | reset lost => exact .next (t := s.resetInput) (State.agreesInUse_of_idle rfl rfl)

theorem State.AgreesInUse.step (h : s.AgreesInUse w) : SameButUnused (step s) (step (s.withWork w)) := by
  cases hi : s.inputs with
  | nil =>
    rw [step_empty hi, step_empty (s := s.withWork w) hi]
    exact h.runStep
  | cons e rest =>
    rw [step_event hi, step_event (s := s.withWork w) hi]
    exact State.AgreesInUse.perform (s := { s with inputs := rest }) h e

end

end Sys2Proof.Machine
end

section
/-! The statements about the state, its registers and its invariant, settled. -/

namespace Sys2Proof.Machine

/-- Settles O48: the invariant is kept by every event, and no step writes the parameters. -/
theorem everyStepKeepsTheInvariant : Obligations.EveryStepKeepsTheInvariant := by
  intro s t hs h
  exact ⟨hs.step h, step_cfg h, fun i => by rw [step_cfg h]⟩

/-- Settles O18: of the effects of a step only reset and a CMD write reach RES. -/
theorem resChangesOnlyByItsCommands : Obligations.ResChangesOnlyByItsCommands := by
  intro s t h hne
  cases stepEffect_of_step h with
  | reset hl => exact .inl ⟨_, _, hl⟩
  | @write word v rest _ hl hw =>
    obtain ⟨rfl, hp, i, hi, hwrites, hdone, herr⟩ := State.writeReg_res (s := { s with inputs := rest }) hw hne
    exact .inr ⟨v, rest, i, hl, hp, hi, hdone, herr, hwrites⟩
  | finish _ hk => exact absurd (State.congr_fixedPart hk State.res) hne
  | other hk => exact absurd (State.congr_fixedPart hk State.res) hne

/-- Settles O19: of the effects of a step only reset, a register write and a finish reach the slots. -/
theorem slotsChangeOnlyByTheirWriters : Obligations.SlotsChangeOnlyByTheirWriters := by
  intro s t h hne
  cases stepEffect_of_step h with
  | reset hl => exact .inl ⟨_, _, hl⟩
  | @write word v rest _ hl hw =>
    obtain ⟨hp, hwriter⟩ := State.writeReg_slots (s := { s with inputs := rest }) hw hne
    exact .inr (.inr ⟨hp, word, v, rest, hl, hwriter⟩)
  | finish hb _ => exact .inr (.inl ⟨hb, rfl, rfl⟩)
  | other hk => exact absurd (State.congr_fixedPart hk State.slots) hne

/-- Settles O45: a step takes two states that agree in use to outcomes that agree in use. -/
theorem unloadedWorkIsUnobservable : Obligations.UnloadedWorkIsUnobservable := by
  intro s t w hlen hget h
  exact State.AgreesInUse.step (s := s) ⟨hlen, hget⟩ t h

/-- Settles O50: the operands are guarded registers, and no effect of a command reaches them. -/
theorem operandRegistersAreTheHosts : Obligations.OperandRegistersAreTheHosts := by
  refine ⟨fun s v hp => ?writes, fun s => ?reads, fun s t i h => (commandEffect_of_exec h).operands⟩
  case writes =>
    exact ⟨State.writeReg_idle (r := .opa) rfl rfl hp v, State.writeReg_idle (r := .opb) rfl rfl hp v,
      State.writeReg_idle (r := .opc) rfl rfl hp v, State.writeReg_idle (r := .outBase) rfl rfl hp v⟩
  case reads =>
    exact ⟨State.readReg_regData (r := .opa) rfl, State.readReg_regData (r := .opb) rfl,
      State.readReg_regData (r := .opc) rfl, State.readReg_regData (r := .outBase) rfl⟩

/-- Settles O51: each field stands at its offset, and takes a write as any guarded register does. -/
theorem slotFieldsKeepTheirPatterns : Obligations.SlotFieldsKeepTheirPatterns := by
  intro s i v hshape hp hi
  obtain ⟨hlegal, hslots, -⟩ := hshape
  have hmap := regAt_slotField hlegal.1.2 hi
  have hwrite (f : SlotField) := State.writeReg_idle (hmap f) rfl hp v
  refine ⟨hwrite .volume, hwrite .tlen, hwrite .tcur, hwrite .tfrom, hwrite .tto, hwrite .bufBase,
    hwrite .bufLen, fun k hk t ht => ?_⟩
  obtain ⟨f, hf⟩ := exists_slotField hk
  rw [← hf] at ht ⊢
  cases (hwrite f).symm.trans ht
  rw [State.readReg_regData (s := s.putReg (.slot i f) v) (hmap f)]
  change ((s.setSlot i ((s.slot i).put f v)).slot i).get f = v
  rw [State.slot_setSlot_same (hslots ▸ hi), Slot.get_put]

/-- Settles O52: the register map names no register there. -/
theorem unmappedOffsetsReadZero : Obligations.UnmappedOffsetsReadZero := by
  intro s off v hlt hal h
  have hnone : regAt s.cfg (portOf off) = none := by rw [regAt_portOf _ hlt hal, regAtOffset_unmapped h]
  exact ⟨State.readReg_unmapped hnone, State.writeReg_unmapped hnone v⟩

/-- Settles O53: guarded registers ignore writes while BUSY, and no effect of a step but reset and the
finish, which end the run, reaches the registers of a run. -/
theorem busyProtectsTheRegistersOfARun : Obligations.BusyProtectsTheRegistersOfARun := by
  refine ⟨fun s hb => ⟨fun word v hcmd hstatus hirq => ?writes, fun _ => rfl, fun t h ht => ?steps⟩,
    fun s => ?reads, fun s i hlegal hi => ?slots⟩
  case writes =>
    refine State.writeReg_busy hb (fun r hr => ?_) v
    have hport := regAt_eq_some_port hr
    cases r with
    | cmd => exact absurd hport hcmd
    | status => exact absurd hport hstatus
    | irqEn => exact absurd hport hirq
    | _ => rfl
  case steps => simpa [State.runRegisters] using step_runRegisters hb h ht
  case reads =>
    simp only [BitVec.ofNat_toNat]
    exact ⟨State.readReg_regData (r := .length) rfl, State.readReg_regData (r := .bitdepth) rfl,
      State.readReg_regData (r := .channels) rfl, State.readReg_regData (r := .nbuf) rfl,
      State.readReg_regData (r := .nrec) rfl, State.readReg_regData (r := .outBase) rfl⟩
  case slots =>
    have hread (f : SlotField) := State.readReg_regData (s := s) (regAt_slotField hlegal.1.2 hi f)
    exact ⟨hread .volume, hread .tlen, hread .tcur, hread .tfrom, hread .tto, hread .bufBase, hread .bufLen⟩

/-- Settles O55: STATUS reads as the sum of its fields, which overlap in no bit. -/
theorem statusReadsItsFields : Obligations.StatusReadsItsFields := by
  intro s
  rw [State.readReg_regData (r := .status) rfl, State.regValue, State.toNat_statusWord]
  simp [State.busy]

/-- Settles O57: the interrupt by its formula, and by the effects of a command. -/
theorem interruptFollowsDoneAndErr : Obligations.InterruptFollowsDoneAndErr := by
  refine ⟨fun s => by simp [State.irq], fun s => rfl, fun s v => ⟨?write, ?read⟩, fun s t v hp he h => ?raised⟩
  case write =>
    rw [State.writeReg_irqEn rfl, getLsbD_eq_decide, pow_zero, Nat.div_one]
  case read => exact State.readReg_regData (r := .irqEn) rfl
  case raised =>
    obtain ⟨hb, -⟩ | ⟨-, i, hi, hx⟩ | ⟨-, -, -, rfl⟩ := State.writeCmd_next h
    · exact absurd hp hb
    · obtain ⟨hen, hrep | ⟨rfl, hrun⟩⟩ := (commandEffect_of_exec hx).reports_or_runs hp
      · exact .inl (by simp [State.irq, hen, he, hrep])
      · exact .inr ⟨eq_one_of_decode_mix hi, hrun⟩
    · exact .inl (by simp [State.irq, he])

/-- Settles O5: the decoder's answer for the word, and for the word of a well-formed command. -/
theorem stepRunsTheDecodedCommand : Obligations.StepRunsTheDecodedCommand := by
  refine ⟨fun s v i rest hs h => step_command hs h, fun s i hi => ?_⟩
  have hword : BitVec.ofNat 64 ((encode i).toNat % 2 ^ 64) = encode i := by
    rw [Nat.mod_eq_of_lt (encode i).isLt, BitVec.ofNat_toNat, BitVec.setWidth_eq]
  exact step_command (rest := s.inputs) rfl (hword.symm ▸ decode_encode hi)

/-- Settles O43: each register of the power-on state by its read. -/
theorem resetValues : Obligations.ResetValues := by
  intro c _
  refine ⟨BitVec.eq_of_toNat_eq (State.toNat_statusWord _), rfl, rfl, rfl, ?reads,
    List.length_replicate, fun i hi => ?slots, rfl⟩
  case reads =>
    simp only [List.forall_mem_cons]
    exact ⟨State.readReg_regData (r := .length) rfl, State.readReg_regData (r := .bitdepth) rfl,
      State.readReg_regData (r := .channels) rfl, State.readReg_regData (r := .nbuf) rfl,
      State.readReg_regData (r := .nrec) rfl, State.readReg_regData (r := .outBase) rfl,
      State.readReg_regData (r := .opa) rfl, State.readReg_regData (r := .opb) rfl,
      State.readReg_regData (r := .opc) rfl, State.readReg_regData (r := .res) rfl,
      State.readReg_regData (r := .pos) rfl, nofun⟩
  case slots => simp [State.slot, State.powerOn, hi, Slot.reset]

/-- Settles O47: reset is a power-on with legal parameters. -/
theorem resetMeetsTheInvariant : Obligations.ResetMeetsTheInvariant := inv_powerOn (by decide)

/-- Settles O49: a guarded 32-bit register keeps the low half of the word and reads it back. -/
theorem thirtyTwoBitRegistersDropUpperBits : Obligations.ThirtyTwoBitRegistersDropUpperBits := by
  intro s v
  refine ⟨fun hp => ?idle, State.writeReg_readOnly (r := .pos) rfl rfl v, ?pos⟩
  case idle =>
    simp only [← setWidth_low_half, List.forall_mem_cons]
    exact ⟨State.writeReg_idle (r := .length) rfl rfl hp v, State.writeReg_idle (r := .bitdepth) rfl rfl hp v,
      State.writeReg_idle (r := .channels) rfl rfl hp v, State.writeReg_idle (r := .nbuf) rfl rfl hp v,
      State.writeReg_idle (r := .nrec) rfl rfl hp v,
      State.write_then_read (r := .length) rfl rfl hp v, State.write_then_read (r := .bitdepth) rfl rfl hp v,
      State.write_then_read (r := .channels) rfl rfl hp v, State.write_then_read (r := .nbuf) rfl rfl hp v,
      State.write_then_read (r := .nrec) rfl rfl hp v, nofun⟩
  case pos =>
    rw [BitVec.ofNat_toNat]
    exact State.readReg_regData (r := .pos) rfl

/-- Settles O54: the write is `clearStatus`, flag by flag. -/
theorem statusWritesOnlyClear : Obligations.StatusWritesOnlyClear := by
  intro s v
  rw [State.writeReg_status rfl]
  simp only [State.clearStatus, clearedBy_eq, Nat.reducePow]

/-- Settles O56: what the read-only registers hold, and that they ignore writes. -/
theorem identificationRegisters : Obligations.IdentificationRegisters := by
  intro s v
  have hparam : (s.readReg (portOf 0x078)).regData = paramWord s.cfg := State.readReg_regData (r := .param) rfl
  refine ⟨State.readReg_regData (r := .id) rfl, State.readReg_regData (r := .cmd) rfl,
    State.writeReg_readOnly (r := .id) rfl rfl v, State.writeReg_readOnly (r := .param) rfl rfl v,
    State.readReg_regData (r := .res) rfl, State.writeReg_readOnly (r := .res) rfl rfl v, ?legal, ?default⟩
  case legal => exact fun hlegal => hparam ▸ toNat_paramWord hlegal
  case default =>
    intro hcfg
    rw [hparam, hcfg]
    rfl

end Sys2Proof.Machine
end

section
/-! The turns of the sequencer: what a run step or a single byte of one does, said once; that a run that
validation accepted stays inside DMEM, so that no turn of it faults (20_memory R67). -/

namespace Sys2Proof.Machine

/-! ## What a turn of the sequencer can do -/

/-- Storing output bytes leaves every other byte of DMEM alone. -/
theorem State.read_storeOutput_outside (s : State) {a x : Nat} {bytes : List Byte}
    (h : x < a ∨ a + bytes.length ≤ x) :
    Memory.read (s.storeOutput a bytes).mem x = Memory.read s.mem x := by
  obtain ⟨bs, hlen, hmem⟩ := s.storeOutput_mem a bytes
  rw [hmem, Memory.read_writeBytes_outside _ (hlen ▸ h)]

/-- How many bytes a sample step still has to write. -/
theorem State.Loads.length {s : State} {bytes : List Byte} (h : s.Loads bytes) :
    bytes.length = if s.beat = 0 then s.bs else s.held.length := by
  obtain ⟨hb, -, rfl⟩ | ⟨hb, rfl⟩ := h
  · rw [if_pos hb, State.length_sampleBytes]
  · rw [if_neg hb]

/-- With a sample to write the run stands in SAMPLE already (43_mixer R172). -/
theorem State.advance_of_nextPhase_sample {s : State} (h : s.nextPhase = .sample) : s.advance = s :=
  State.advance_of_nextPhase (h.trans (s.nextPhase_eq_sample_iff.mp h).1.symm)

/-- A tail byte written (43_mixer R176). -/
def State.endTail (s : State) : State := { s with beat := s.beat + 1 }.advance

/-- A tail write is one byte stored and counted. -/
theorem State.tailStep_eq (s : State) : s.tailStep = s.runStore [0x00] State.endTail := rfl

/-- All that a turn of the sequencer, a run step or a single byte of one, can do (43_mixer R172 to R178). -/
inductive Turn (s : State) : State → Prop
  | idle (phase : s.nextPhase = .idle) : Turn s s
  | byte {bytes : List Byte} (phase : s.nextPhase = .sample) (more : s.beat + 1 < s.bs)
      (loads : s.Loads bytes) :
      Turn s (State.endByte (bytes.drop 1) (s.storeOutput s.outAddr (bytes.take 1)))
  | sample {bytes : List Byte} (phase : s.nextPhase = .sample) (loads : s.Loads bytes) :
      Turn s (State.endSample s.crossfadePhase (s.storeOutput s.outAddr bytes))
  | tail (phase : s.nextPhase = .tail) : Turn s (State.endTail (s.advance.storeOutput s.outAddr [0x00]))
  | finish (phase : s.nextPhase = .finish) : Turn s s.finishRun

theorem turn_of_sampleStep {s t : State} (hn : s.nextPhase = .sample) (h : s.sampleStep = .next t) :
    Turn s t := by
  obtain ⟨bytes, hl, -, rfl⟩ := State.sampleStep_next h
  exact .sample hn hl

theorem turn_of_runStep {s t : State} (h : s.runStep = .next t) : Turn s t := by
  obtain ⟨hn, rfl⟩ | ⟨hn, hs⟩ | ⟨hn, hs⟩ | ⟨hn, rfl⟩ := State.runStep_next h
  · exact .idle hn
  · rw [State.advance_of_nextPhase_sample hn] at hs
    exact turn_of_sampleStep hn hs
  · rw [State.tailStep_eq] at hs
    obtain ⟨-, rfl⟩ := State.runStore_next hs
    exact .tail hn
  · exact .finish hn

theorem turn_of_runByte {s t : State} (h : s.runByte = .next t) : Turn s t := by
  obtain ⟨hn, hb⟩ | ⟨-, hs⟩ := State.runByte_next h
  · rw [State.advance_of_nextPhase_sample hn] at hb
    obtain ⟨hmore, bytes, hl, -, rfl⟩ | ⟨-, hs⟩ := State.sampleByte_next hb
    · exact .byte hn hmore hl
    · exact turn_of_sampleStep hn hs
  · exact turn_of_runStep hs

/-- t is s but for what a run may change (43_mixer R175). -/
abbrev State.SameButRun (s t : State) : Prop :=
  t =
    { s with
      mem := t.mem, work := t.work, pos := t.pos, phase := t.phase, beat := t.beat, held := t.held
      draws := t.draws, slots := t.slots, done := t.done, tainted := t.tainted }

theorem Turn.sameButRun {s t : State} (h : Turn s t) : s.SameButRun t := by
  cases h with
  | idle | finish => rfl
  | byte | sample | tail =>
    rw [State.storeOutput_eq]
    rfl

/-- Only the finish changes the slots, DONE and the mark of a broken duty. -/
theorem Turn.kept_before_finish {s t : State} (h : Turn s t) (hn : s.nextPhase ≠ .finish) :
    t.slots = s.slots ∧ t.done = s.done ∧ t.tainted = s.tainted := by
  cases h with
  | idle => exact ⟨rfl, rfl, rfl⟩
  | finish hf => exact absurd hf hn
  | byte | sample | tail =>
    rw [State.storeOutput_eq]
    exact ⟨rfl, rfl, rfl⟩

/-- Where the bytes of DMEM that a turn stores end. -/
def State.turnEnd (s : State) : Nat :=
  s.outAddr +
    (match s.nextPhase with
    | .sample => if s.beat = 0 then s.bs else s.held.length
    | .tail => 1
    | .finish => 0
    | .idle => 0)

/-- A turn leaves every byte of DMEM alone but those that it stores from the next output byte on. -/
theorem Turn.read_outside {s t : State} (h : Turn s t) {a : Nat} (ha : a < s.outAddr ∨ s.turnEnd ≤ a) :
    Memory.read t.mem a = Memory.read s.mem a := by
  unfold State.turnEnd at ha
  cases h with
  | idle | finish => rfl
  | @byte bytes hn _ hl =>
    simp only [hn, ← hl.length] at ha
    exact s.read_storeOutput_outside (by rw [List.length_take]; omega)
  | sample hn hl =>
    simp only [hn, ← hl.length] at ha
    exact s.read_storeOutput_outside ha
  | tail hn =>
    simp only [hn] at ha
    exact s.advance.read_storeOutput_outside ha

/-! ## What validation has checked of a run in progress (43_mixer R167 to R169) -/

theorem State.firstSlot_eq_none_iff {s : State} {p : Nat → Bool} :
    s.firstSlot p = none ↔ ∀ i < s.count, p i = false := by
  simp [State.firstSlot]

theorem State.checkBuffers_eq_none_iff (s : State) :
    s.checkBuffers = none ↔
      ∀ i < s.count, s.bufShort i = false ∧ s.bufOutside i = false ∧ s.bufOverlaps i = false := by
  have hparts : s.checkBuffers = none ↔
      s.firstSlot s.bufShort = none ∧ s.firstSlot s.bufOutside = none ∧
        s.firstSlot s.bufOverlaps = none := by
    unfold State.checkBuffers
    split
    · next h => simp [h]
    · next h =>
      split
      · next h' => simp [h']
      · next h' =>
        split
        · next h'' => simp [h'']
        · next h'' => simp [h, h', h'']
  simp only [hparts, State.firstSlot_eq_none_iff, ← forall_and]

/-- The output window lies inside DMEM, and each input window below N lies inside DMEM and apart from it
(20_memory R67). -/
structure State.WindowsOk (s : State) : Prop where
  out : s.inDmem s.outBase.toNat s.len = true
  ins : ∀ i < s.count, s.inDmem (s.slot i).bufBase.toNat s.req = true
  apart : ∀ i < s.count, s.outWindow.meets (s.inWindow i) = false

theorem State.windowsOk_of_accepted {s : State} (h : s.mixError = none) : s.WindowsOk := by
  obtain ⟨-, -, -, -, -, hout, hbuf⟩ := s.mixError_eq_none_iff.mp h
  rw [State.checkBuffers_eq_none_iff] at hbuf
  refine ⟨hout, fun i hi => ?_, fun i hi => ?_⟩
  · obtain ⟨-, houtside, -⟩ := hbuf i hi
    simpa [State.bufOutside] using houtside
  · obtain ⟨-, -, hoverlaps⟩ := hbuf i hi
    exact hoverlaps

/-- Addresses inside a range of DMEM lie inside DMEM (20_memory R60). -/
theorem State.inDmem_within {s : State} {a n : Nat} (h : s.inDmem a n = true) {k m : Nat} (hk : k + m ≤ n) :
    s.inDmem (a + k) m = true := by
  rw [State.inDmem_iff] at h ⊢
  omega

section
variable {s : State}

theorem State.Inv.mixError (hs : s.Inv) (hb : s.phase ≠ .idle) : s.mixError = none := by
  obtain ⟨-, -, -, -, hrun, -⟩ := hs
  obtain ⟨-, -, -, hok, -⟩ := hrun hb
  exact hok

/-- The next output bytes of a run lie inside DMEM. -/
theorem State.Inv.inDmem_outAddr (hs : s.Inv) (hb : s.phase ≠ .idle) {n : Nat}
    (hn : s.pos.toNat + s.beat + n ≤ s.len) : s.inDmem s.outAddr n = true := by
  rw [State.outAddr, Nat.add_assoc]
  exact State.inDmem_within (State.windowsOk_of_accepted (hs.mixError hb)).out hn

/-- A whole sample left in LENGTH is one of the samples that REQ covers. -/
theorem State.Inv.sample_le_req (hs : s.Inv) (hb : s.phase ≠ .idle) (hle : s.pos.toNat + s.bs ≤ s.len) :
    s.pos.toNat + s.bs ≤ s.req :=
  State.le_req (by rw [Nat.add_mod_right, (hs.pos_ok hb).1]) hle

/-- A run reads its sources inside DMEM. -/
theorem State.Inv.readOutside (hs : s.Inv) (hb : s.phase ≠ .idle) (hle : s.pos.toNat + s.bs ≤ s.len) :
    s.readOutside = none := by
  refine State.firstSlot_eq_none_iff.mpr fun i hi => ?_
  rw [State.inDmem_within ((State.windowsOk_of_accepted (hs.mixError hb)).ins i hi)
    (hs.sample_le_req hb hle)]
  rfl

/-! ## The turns of a run that meets the invariant -/

/-- A sample with a byte still to write. -/
theorem State.Inv.sample_ok (hs : s.Inv) (hn : s.nextPhase = .sample) :
    s.phase = .sample ∧ s.pos.toNat + s.bs ≤ s.len ∧ s.beat < s.bs := by
  obtain ⟨hp, hhas⟩ := s.nextPhase_eq_sample_iff.mp hn
  have hle : s.pos.toNat + s.bs ≤ s.len := of_decide_eq_true hhas
  obtain ⟨-, -, -, -, -, -, -, hsample, -⟩ := hs
  obtain ⟨-, hlt⟩ | ⟨hlt, -⟩ := hsample hp
  exacts [⟨hp, hle, hlt⟩, by omega]

/-- A tail byte still to write (43_mixer R176). -/
theorem State.Inv.tail_ok (hs : s.Inv) (hn : s.nextPhase = .tail) :
    s.phase ≠ .idle ∧ s.pos.toNat = s.req ∧ s.req + s.beat < s.len := by
  obtain ⟨-, -, -, -, -, -, -, -, htail, -⟩ := hs.advance
  refine ⟨fun hp => ?_, htail hn⟩
  rw [s.nextPhase_eq_idle_iff.mpr hp] at hn
  cases hn

/-- No byte is held in the tail. -/
theorem State.Inv.held_of_tail (hs : s.Inv) (hn : s.nextPhase = .tail) : s.held = [] := by
  obtain ⟨-, -, -, -, -, hheld, -⟩ := hs.advance
  have hphase : s.advance.phase ≠ .sample := fun hp => by rw [State.advance_phase, hn] at hp; cases hp
  exact List.eq_nil_of_length_eq_zero (hheld.trans (if_neg fun h => hphase h.1))

/-- Every byte is written at the finish (43_mixer R176). -/
theorem State.Inv.finish_ok (hs : s.Inv) (hn : s.nextPhase = .finish) :
    s.pos.toNat = s.req ∧ s.req + s.beat = s.len := by
  obtain ⟨-, -, -, -, -, -, -, -, -, hfinish⟩ := hs.advance
  exact hfinish hn

/-- What a sample step of a run loads. -/
theorem State.Inv.loads (hs : s.Inv) (hn : s.nextPhase = .sample) :
    s.Loads (if s.beat = 0 then s.sampleBytes else s.held) := by
  obtain ⟨hp, hle, -⟩ := hs.sample_ok hn
  by_cases hb : s.beat = 0
  · exact .inl ⟨hb, hs.readOutside (by rw [hp]; nofun) hle, if_pos hb⟩
  · exact .inr ⟨hb, if_neg hb⟩

/-- The bytes still to write of a sample are those past `beat`. -/
theorem State.Inv.length_loads (hs : s.Inv) (hn : s.nextPhase = .sample) {bytes : List Byte}
    (hl : s.Loads bytes) : s.beat + bytes.length = s.bs := by
  obtain ⟨hp, -, hlt⟩ := hs.sample_ok hn
  obtain ⟨-, -, -, -, -, hheld, -⟩ := hs
  rw [hl.length, hheld]
  by_cases hb : s.beat = 0
  · rw [if_pos hb, hb, Nat.zero_add]
  · rw [if_neg hb, if_pos ⟨hp, hb⟩]
    omega

theorem State.Inv.runStep_sample (hs : s.Inv) (hn : s.nextPhase = .sample) {bytes : List Byte}
    (hl : s.Loads bytes) :
    s.runStep = .next (State.endSample s.crossfadePhase (s.storeOutput s.outAddr bytes)) := by
  obtain ⟨hp, hle, -⟩ := hs.sample_ok hn
  have hlen := hs.length_loads hn hl
  rw [s.runStep_eq.1 hn, State.advance_of_nextPhase_sample hn, State.sampleStep, State.runLoad_of_loads hl]
  exact if_pos (hs.inDmem_outAddr (by rw [hp]; nofun) (by omega))

theorem State.Inv.runByte_sample (hs : s.Inv) (hn : s.nextPhase = .sample) (hmore : s.beat + 1 < s.bs)
    {bytes : List Byte} (hl : s.Loads bytes) :
    s.runByte = .next (State.endByte (bytes.drop 1) (s.storeOutput s.outAddr (bytes.take 1))) := by
  obtain ⟨hp, hle, -⟩ := hs.sample_ok hn
  have hlen := List.length_take_le 1 bytes
  rw [s.runByte_eq.1 hn, State.advance_of_nextPhase_sample hn, State.sampleByte, if_pos hmore,
    State.runLoad_of_loads hl]
  exact if_pos (hs.inDmem_outAddr (by rw [hp]; nofun) (by omega))

/-- The last byte of a sample is the run step (20_memory R74). -/
theorem State.runByte_last (hmore : ¬ s.beat + 1 < s.bs) : s.runByte = s.runStep := by
  by_cases hn : s.nextPhase = .sample
  · rw [s.runByte_eq.1 hn, s.runStep_eq.1 hn]
    exact if_neg hmore
  · exact s.runByte_eq.2 hn

theorem State.Inv.exists_runStep (hs : s.Inv) : ∃ t, s.runStep = .next t := by
  obtain ⟨-, htail, hfinish⟩ := s.runStep_eq
  cases hn : s.nextPhase with
  | idle => exact ⟨s, State.runStep_idle (s.nextPhase_eq_idle_iff.mp hn)⟩
  | sample => exact ⟨_, hs.runStep_sample hn (hs.loads hn)⟩
  | tail =>
    obtain ⟨hb, hpos, hlt⟩ := hs.tail_ok hn
    rw [htail hn]
    exact ⟨_, if_pos (hs.inDmem_outAddr (n := 1) hb (by omega))⟩
  | finish => exact ⟨_, hfinish hn⟩

theorem State.Inv.exists_runByte (hs : s.Inv) : ∃ t, s.runByte = .next t := by
  by_cases hmore : s.beat + 1 < s.bs
  · by_cases hn : s.nextPhase = .sample
    · exact ⟨_, hs.runByte_sample hn hmore (hs.loads hn)⟩
    · rw [s.runByte_eq.2 hn]
      exact hs.exists_runStep
  · rw [State.runByte_last hmore]
    exact hs.exists_runStep

/-- POS of a sample step does not wrap. -/
theorem State.toNat_pos_add_bs (hle : s.pos.toNat + s.bs ≤ s.len) :
    (BitVec.ofNat 32 (s.pos.toNat + s.bs)).toNat = s.pos.toNat + s.bs := by
  have hlt : s.len < 2 ^ 32 := s.length.isLt
  rw [BitVec.toNat_ofNat, Nat.mod_eq_of_lt (by omega)]

/-- Wherever a run stands, it stays in progress. -/
theorem State.advance_busy (hb : s.phase ≠ .idle) : s.advance.phase ≠ .idle :=
  fun hi => hb (s.nextPhase_eq_idle_iff.mp hi)

/-! ## A sample step, spelled out -/

/-- Where a run stands after a sample (43_mixer R172, R176). -/
theorem State.nextPhase_after_sample {u : State} (hp : u.phase = .sample) (hb : u.beat = 0) :
    u.nextPhase =
      if u.pos.toNat + u.bs ≤ u.len then .sample else if u.pos.toNat < u.len then .tail else .finish := by
  simp only [State.nextPhase, hp, State.hasSample, State.hasTail, hb, Nat.add_zero, decide_eq_true_eq]

/-- The end of a sample step, with PHASE spelled out (43_mixer R172 to R174). -/
theorem State.endSample_eq {u : State} (hp : u.phase = .sample) (hle : u.pos.toNat + u.bs ≤ u.len)
    (w : List Work) :
    State.endSample w u =
      { u with
        work := w, pos := BitVec.ofNat 32 (u.pos.toNat + u.bs), beat := 0, held := []
        phase :=
          if u.pos.toNat + u.bs + u.bs ≤ u.len then .sample
          else if u.pos.toNat + u.bs < u.len then .tail else .finish } := by
  have hphase := State.nextPhase_after_sample
    (u := { u with work := w, pos := BitVec.ofNat 32 (u.pos.toNat + u.bs), beat := 0, held := [] }) hp rfl
  simp only [State.toNat_pos_add_bs hle] at hphase
  exact congrArg
    (fun p => { u with
      work := w, pos := BitVec.ofNat 32 (u.pos.toNat + u.bs), beat := 0, held := [], phase := p }) hphase

/-- The crossfade phase, with XfStep for the ACTIVE records alone (43_mixer R173, 42_crossfade R141). -/
theorem State.crossfadePhase_eq (s : State) :
    s.crossfadePhase =
      if s.pos.toNat % s.ss = 0 then
        s.work.mapIdx fun i r =>
          if i < s.count ∧ 0 ≤ r.tlen.toInt then xfStep s.cfg (s.slot i).tfrom (s.slot i).tto r else r
      else s.work := by
  unfold State.crossfadePhase
  simp only [crossfade, Work.active, decide_eq_true_eq, ← ite_and]

/-- The accumulator as one fold over the sources (43_mixer R162, R174). -/
theorem State.sampleAcc_eq (s : State) :
    s.sampleAcc =
      (List.range s.count).foldl (fun acc i => mixPair acc (s.sourceValue s.crossfadePhase i)) 0 := by
  rw [State.sampleAcc, mixFold, List.foldl_map]
  rfl

/-! ## Nothing stops -/

/-- Every command gives a next state. -/
theorem exists_exec (i : Instr) (s : State) : ∃ t, exec i s = .next t := by
  rw [exec_eq_issue]
  by_cases hp : s.phase = .idle
  exacts [⟨_, State.issue_idle hp _⟩, ⟨_, State.issue_busy hp _⟩]

theorem State.exists_writeReg (s : State) (word : BitVec 9) (v : Word) :
    ∃ t, s.writeReg word v = .next t := by
  cases hr : regAt s.cfg word with
  | none => exact ⟨_, State.writeReg_unmapped hr v⟩
  | some r =>
    cases r with
    | cmd =>
      rw [State.writeReg_cmd hr, State.writeCmd]
      split
      · exact ⟨_, rfl⟩
      · split
        · next i _ => exact exists_exec i s
        · exact ⟨_, rfl⟩
    | status => exact ⟨_, State.writeReg_status hr v⟩
    | irqEn => exact ⟨_, State.writeReg_irqEn hr v⟩
    | _ => exact ⟨_, State.writeReg_guarded hr rfl v⟩

theorem State.Inv.exists_poll (hs : s.Inv) : ∃ t, s.poll = .next t := by
  unfold State.poll
  split
  · obtain ⟨u, hu⟩ := (hs.readReg statusPort).exists_runStep
    rw [hu]
    exact ⟨_, rfl⟩
  · exact ⟨_, rfl⟩

theorem State.Inv.exists_perform (hs : s.Inv) (e : Event) : ∃ t, s.perform e = .next t := by
  cases e with
  | reg a =>
    cases a with
    | write word v => exact s.exists_writeReg word v
    | read word => exact ⟨_, rfl⟩
  | wait => exact hs.exists_poll
  | runStep => exact hs.exists_runStep
  | runByte => exact hs.exists_runByte
  | memWrite _ _ | memRead _ _ | reset _ => exact ⟨_, rfl⟩

theorem exists_step (hs : s.Inv) : ∃ t, step s = .next t := by
  cases hi : s.inputs with
  | nil =>
    rw [step_empty hi]
    exact hs.exists_runStep
  | cons e rest =>
    rw [step_event hi]
    exact State.Inv.exists_perform (s := { s with inputs := rest }) hs e

/-- A turn of a run that leaves it in progress writes some of its LENGTH bytes; the other is its finish. -/
theorem State.Inv.turn_progress {t : State} (hs : s.Inv) (hb : s.phase ≠ .idle) (h : Turn s t) :
    (t.phase = .idle ∧ t.done = true) ∨
      (t.phase ≠ .idle ∧ s.pos.toNat + s.beat < t.pos.toNat + t.beat ∧
        t.pos.toNat + t.beat ≤ s.len) := by
  cases h with
  | idle hn => exact absurd (s.nextPhase_eq_idle_iff.mp hn) hb
  | finish => exact .inl ⟨rfl, rfl⟩
  | byte hn hmore =>
    obtain ⟨-, hle, -⟩ := hs.sample_ok hn
    rw [State.storeOutput_eq]
    exact .inr ⟨hb, Nat.lt_succ_self _, by change s.pos.toNat + (s.beat + 1) ≤ s.len; omega⟩
  | sample hn =>
    obtain ⟨-, hle, hlt⟩ := hs.sample_ok hn
    have hpos := State.toNat_pos_add_bs hle
    rw [State.storeOutput_eq]
    refine .inr ⟨State.advance_busy hb, ?_⟩
    rw [State.endSample_pos, State.endSample_beat]
    change _ < (BitVec.ofNat 32 (s.pos.toNat + s.bs)).toNat + 0 ∧
      (BitVec.ofNat 32 (s.pos.toNat + s.bs)).toNat + 0 ≤ _
    omega
  | tail hn =>
    obtain ⟨-, hpos, hlt⟩ := hs.tail_ok hn
    rw [State.storeOutput_eq]
    exact .inr ⟨State.advance_busy (State.advance_busy hb), Nat.lt_succ_self _,
      by change s.pos.toNat + (s.beat + 1) ≤ s.len; omega⟩

end

end Sys2Proof.Machine
end

section
/-! The host's accesses to DMEM: a write that touches no window under duty, a write and a read that reach
past MEM_SIZE (30_encoding R90, 70_reset_and_hazards R266, R267). -/

namespace Sys2Proof.Machine

theorem Window.has_iff (w : Window) (x : Nat) : w.has x = true ↔ w.base ≤ x ∧ x < w.base + w.size := by
  simp [Window.has]

theorem Window.meets_iff (v w : Window) :
    v.meets w = true ↔
      0 < v.size ∧ 0 < w.size ∧ v.base < w.base + w.size ∧ w.base < v.base + v.size := by
  simp [Window.meets, and_assoc]

/-- Two windows that meet share an address (20_memory R66). -/
theorem Window.exists_of_meets {v w : Window} (h : v.meets w = true) :
    ∃ x, w.base ≤ x ∧ x < w.base + w.size ∧ v.has x = true := by
  rw [Window.meets_iff] at h
  refine ⟨max v.base w.base, by omega, by omega, ?_⟩
  rw [Window.has_iff]
  omega

/-- A window that has an address of another meets it. -/
theorem Window.meets_of_has {v w : Window} {x : Nat} (hv : v.has x = true) (hw : w.has x = true) :
    v.meets w = true := by
  rw [Window.has_iff] at hv hw
  rw [Window.meets_iff]
  omega

/-- A write breaks a duty only at an address of one of its windows (70 R266). -/
theorem Duty.touchedBy_of_broken {d : Duty} {a n : Nat} (h : d.broken ⟨a, n⟩ = true) : d.TouchedBy a n := by
  rw [Duty.broken, Bool.or_eq_true, List.any_eq_true] at h
  obtain hout | ⟨v, hv, hin⟩ := h
  · obtain ⟨x, hlo, hhi, hx⟩ := Window.exists_of_meets hout
    exact ⟨x, hlo, hhi, .inl hx⟩
  · obtain ⟨x, hlo, hhi, hx⟩ := Window.exists_of_meets hin
    exact ⟨x, hlo, hhi, .inr ⟨v, hv, hx⟩⟩

/-- A host's bytes that break no duty are stored, and nothing else changes. -/
theorem State.hostStore_unbroken {s : State} {a : Nat} {bytes : List Byte}
    (h : ∀ d ∈ s.duties, ¬ d.TouchedBy a bytes.length) :
    s.hostStore a bytes = { s with mem := s.mem.writeBytes a bytes } := by
  have hkept : ∀ d ∈ s.duties, d.broken ⟨a, bytes.length⟩ = false := fun d hd =>
    Bool.eq_false_iff.mpr fun hb => h d hd (Duty.touchedBy_of_broken hb)
  have hrun : s.breaksRun ⟨a, bytes.length⟩ = false := by
    rw [State.breaksRun, Bool.and_eq_false_iff, Option.any_eq_false]
    exact .inr fun d hd => hkept d (List.mem_of_head? hd)
  rw [State.hostStore, State.breaches_none hkept, hrun, Bool.or_false]

/-- A read after a write of several bytes, in canonical memory. -/
theorem Memory.read_writeBytes {m : Memory} (hm : Memory.wf m = true) (a x : Nat) (bs : List Byte) :
    Memory.read (Memory.writeBytes m a bs) x =
      if a ≤ x then bs.getD (x - a) (Memory.read m x) else Memory.read m x := by
  by_cases hin : a ≤ x ∧ x < a + bs.length
  · have hread := Memory.read_writeBytes_inside hm (a := a) (k := x - a) (bs := bs) (by omega)
    rw [Nat.add_sub_cancel' hin.1] at hread
    rw [hread, if_pos hin.1, List.getD_eq_getElem]
  · rw [Memory.read_writeBytes_outside _ (by omega)]
    split_ifs with ha
    · rw [List.getD_eq_default _ _ (by omega)]
    · rfl

/-- A host write that reaches past MEM_SIZE is the write of its bytes below it (entry 10). -/
theorem State.hostWrite_past {s : State} {a : Nat} {bytes : List Byte}
    (h : s.cfg.memSize < a + bytes.length) :
    s.hostWrite a bytes = s.hostWrite a (bytes.take (s.cfg.memSize - a)) := by
  have hall : s.existing a bytes.length = s.cfg.memSize - a := by unfold State.existing; omega
  have htaken : s.existing a (bytes.take (s.cfg.memSize - a)).length = s.cfg.memSize - a := by
    rw [List.length_take, State.existing]
    omega
  rw [State.hostWrite, State.hostWrite, hall, htaken, List.take_take, Nat.min_self]

section
variable (s : State) (a n : Nat)

theorem State.length_hostRead : (s.hostRead a n).memData.length = n := by
  simp only [State.hostRead, List.length_append, Memory.length_readBytes, State.length_freeBytes,
    State.existing]
  omega

variable {s a n} {k : Nat}

/-- A host read returns the bytes of DMEM where addresses exist. -/
theorem State.hostRead_existing (hk : k < n) (hin : a + k < s.cfg.memSize) :
    (s.hostRead a n).memData[k]? = some (Memory.read s.mem (a + k)) := by
  have hlt : k < s.existing a n := by unfold State.existing; omega
  simp [State.hostRead, List.getElem?_append_left, Memory.readBytes, hlt]

/-- Past DMEM a host read returns bytes drawn by it (entry 10). -/
theorem State.hostRead_free (hk : k < n) (hout : s.cfg.memSize ≤ a + k) :
    ∃ j, s.draws ≤ j ∧ j < (s.hostRead a n).draws ∧
      (s.hostRead a n).memData[k]? = some (Config.freeByte j) := by
  have hge : s.existing a n ≤ k := by unfold State.existing; omega
  refine ⟨s.draws + (k - s.existing a n), Nat.le_add_right _ _, ?_, ?_⟩
  · change _ < s.draws + (n - s.existing a n)
    omega
  · rw [State.hostRead, List.getElem?_append_right (by simpa using hge), Memory.length_readBytes]
    simp only [State.freeBytes, List.getElem?_map]
    rw [List.getElem?_range (by omega)]
    rfl

end

end Sys2Proof.Machine
end

section
/-! A run under any interleaving: while the host keeps its duty, DMEM holds what it held with the bytes
written so far of the run's output stored (20_memory R74, 43_mixer R170 to R178, 70 R262, R267). -/

namespace Sys2Proof.Machine

/-! ## The acceptance of a MIX (43_mixer R167 to R170) -/

theorem widthLegal_iff (c : Config) (w : Nat) : widthLegal c w = true ↔ c.AcceptsWidth w := by
  simp [widthLegal, or_assoc]

/-- Checks 7 to 9, spelled out (43_mixer R168, R169). -/
theorem State.slot_checks_iff (s : State) (i : Nat) :
    (s.bufShort i = false ∧ s.bufOutside i = false ∧ s.bufOverlaps i = false) ↔
      ¬ s.ShortBuffer i ∧ ¬ s.BufferOutside i ∧ ¬ s.BufferOverlaps i := by
  have hreq : s.wholeBytes = s.req := rfl
  have hshort : s.bufShort i = true ↔ s.ShortBuffer i := decide_eq_true_iff
  have houtside : s.bufOutside i = true ↔ s.BufferOutside i := by
    rw [State.bufOutside, Bool.not_eq_true', Bool.eq_false_iff, Ne, State.inDmem_iff, State.BufferOutside,
      hreq]
    omega
  have hoverlaps : s.bufOverlaps i = true ↔ s.BufferOverlaps i := by
    rw [State.bufOverlaps, Window.meets_iff, State.BufferOverlaps, hreq]
    exact and_left_comm
  simp only [← hshort, ← houtside, ← hoverlaps, Bool.not_eq_true]

/-- Validation accepts exactly when every check, spelled out, passes (43_mixer R167). -/
theorem State.mixError_eq_none_iff_acceptsMix (s : State) : s.mixError = none ↔ s.AcceptsMix := by
  have hchannels : s.channels.toNat ≠ 0 ↔ s.channels ≠ 0 := by
    rw [Ne, Ne, ← BitVec.toNat_inj]
    rfl
  have hout : s.inDmem s.outBase.toNat s.len = true ↔
      ¬(0 < s.length.toNat ∧ s.cfg.memSize < s.outBase.toNat + s.length.toNat) := by
    rw [State.inDmem_iff, State.len]
    omega
  rw [State.mixError_eq_none_iff, State.checkBuffers_eq_none_iff, widthLegal_iff, hchannels, hout]
  simp only [State.slot_checks_iff, State.AcceptsMix, State.FormatOk, State.count, State.bs, and_assoc]

theorem exec_mix_accepted {s : State} (hp : s.phase = .idle) (hok : s.mixError = none) :
    exec .mix s = .next s.accept.acceptMix := by
  have hok' : s.accept.mixError = none := hok
  rw [exec_eq_issue, State.issue_idle hp, commandRule, hok']

/-! ## The output of a run (43_mixer R174, R176) -/

@[simp] theorem State.length_outputSample (s : State) (j : Nat) : (s.outputSample j).length = s.bs :=
  length_toLE ..

theorem State.length_outputSamples (s : State) (n : Nat) :
    ((List.range n).flatMap s.outputSample).length = n * s.bs := by
  simp [List.length_flatMap]

@[simp] theorem State.length_output (s : State) : s.output.length = s.len := by
  have hle := s.req_le_len
  rw [State.output, List.length_append, s.length_outputSamples, List.length_replicate, ← State.req]
  omega

/-- Sample j stands at j * bs in the output. -/
theorem State.outputSample_isPrefix (s : State) {j : Nat} (hj : j < s.len / s.bs) :
    s.outputSample j <+: s.output.drop (j * s.bs) := by
  obtain ⟨m, hm⟩ := Nat.exists_eq_add_of_lt hj
  rw [State.output, hm, Nat.add_assoc, List.range_add, List.flatMap_append, List.append_assoc,
    List.drop_left' (s.length_outputSamples j), List.range_succ_eq_map, List.map_cons, List.flatMap_cons,
    List.append_assoc]
  exact List.prefix_append _ _

/-- Past REQ the output is zeros (43_mixer R176). -/
theorem State.zero_isPrefix_output (s : State) {p : Nat} (hreq : s.req ≤ p) (hlt : p < s.len) :
    [0x00] <+: s.output.drop p := by
  have hsamples := s.length_outputSamples (s.len / s.bs)
  rw [← State.req] at hsamples
  obtain ⟨k, hk⟩ : ∃ k, s.len - s.req - (p - s.req) = k + 1 := ⟨s.len - p - 1, by omega⟩
  rw [State.output, List.drop_append, List.drop_eq_nil_of_le (by omega), hsamples, List.drop_replicate, hk,
    List.nil_append, List.replicate_succ]
  exact ⟨_, rfl⟩

/-- Bytes that follow the first p of a list, written after these, make its first p and more. -/
theorem Memory.writeBytes_take_append {m : Memory} {a p : Nat} {l bytes : List Byte} (hp : p ≤ l.length)
    (h : bytes <+: l.drop p) :
    Memory.writeBytes (Memory.writeBytes m a (l.take p)) (a + p) bytes =
      Memory.writeBytes m a (l.take (p + bytes.length)) := by
  rw [List.take_add, ← List.prefix_iff_eq_take.mp h, Memory.writeBytes_append, List.length_take,
    Nat.min_eq_left hp]

/-! ## WORK in a run (43_mixer R170, R173) -/

/-- WORK of a run that starts in s, once a number of its frames have begun. -/
def State.workAfter (s : State) (frames : Nat) : List Work :=
  s.work.mapIdx fun i r => if i < s.count then s.recordAfter frames i else r

/-- How many frames the first j samples of a run begin. -/
def State.framesBegun (s : State) (j : Nat) : Nat := (j + (s.channels.toNat - 1)) / s.channels.toNat

theorem State.workAfter_succ (s : State) (frames : Nat) :
    s.workAfter (frames + 1) =
      (s.workAfter frames).mapIdx fun i r =>
        if i < s.count then crossfade s.cfg (s.slot i).tfrom (s.slot i).tto r else r := by
  rw [State.workAfter, State.workAfter, List.mapIdx_mapIdx]
  refine congrArg (s.work.mapIdx ·) (funext fun i => funext fun r => ?_)
  simp only [Function.comp_apply]
  split_ifs
  · exact Function.iterate_succ_apply' ..
  · rfl

theorem State.getD_workAfter {s : State} {i : Nat} (hi : i < s.count) (hlen : i < s.work.length)
    (frames : Nat) : (s.workAfter frames).getD i Work.unloaded = s.recordAfter frames i := by
  simp [State.workAfter, hi, hlen]

section
variable {s : State} (hch : 0 < s.channels.toNat)
include hch

theorem State.framesBegun_zero : s.framesBegun 0 = 0 := Nat.div_eq_of_lt (by omega)

/-- Sample j belongs to frame j / CHANNELS, which it or an earlier sample has begun. -/
theorem State.framesBegun_succ (j : Nat) : s.framesBegun (j + 1) = j / s.channels.toNat + 1 := by
  rw [State.framesBegun, show j + 1 + (s.channels.toNat - 1) = j + s.channels.toNat by omega,
    Nat.add_div_right _ hch]

/-- Before sample j its frame has begun but for the frame's first sample. -/
theorem State.framesBegun_eq (j : Nat) :
    s.framesBegun j = j / s.channels.toNat + if j % s.channels.toNat = 0 then 0 else 1 := by
  have hdiv := Nat.div_add_mod j s.channels.toNat
  have hlt := Nat.mod_lt j hch
  rw [State.framesBegun]
  generalize j / s.channels.toNat = q at *
  generalize j % s.channels.toNat = r at *
  obtain rfl := hdiv
  rw [Nat.add_assoc, Nat.mul_add_div hch]
  congr 1
  split_ifs with hr
  · exact Nat.div_eq_of_lt (by omega)
  · exact Nat.div_eq_of_lt_le (by omega) (by omega)

end

/-! ## A run in progress, compared with the state that issued its MIX -/

/-- The parameters and the registers that a run reads, everything else as after reset. -/
def State.program (s : State) : State :=
  { State.powerOn s.cfg with
    length := s.length, bitdepth := s.bitdepth, channels := s.channels, nbuf := s.nbuf, nrec := s.nrec
    outBase := s.outBase, slots := s.slots }

/-- What depends on the program alone is the same where the program is. -/
theorem State.congr_program {α : Sort*} {s t : State} (h : t.program = s.program) (f : State → α)
    (hf : ∀ u : State, f u.program = f u := by intro; rfl) : f t = f s := by rw [← hf t, h, hf]

/-- u stands in the run that an accepted MIX issued in s has started, and the host has kept its duty. -/
structure State.Mixing (s u : State) : Prop where
  inv : u.Inv
  busy : u.phase ≠ .idle
  program : u.program = s.program
  clean : u.tainted = false
  work : u.work = s.workAfter (s.framesBegun (u.pos.toNat / s.bs))
  held : u.held <+: s.output.drop (u.pos.toNat + u.beat)
  mem : u.mem = Memory.writeBytes s.mem s.outBase.toNat (s.output.take (u.pos.toNat + u.beat))

/-- u is idle after that run, with all of its output in DMEM. -/
structure State.Mixed (s u : State) : Prop where
  idle : u.phase = .idle
  mem : u.mem = Memory.writeBytes s.mem s.outBase.toNat s.output

/-- An accepted MIX starts its run. -/
theorem State.Inv.mixing_start {s : State} (hs : s.Inv) (hp : s.phase = .idle) (hok : s.mixError = none)
    (es : List Event) : s.Mixing ({ s with inputs := es } : State).accept.acceptMix where
  inv := State.IdleInv.acceptMix (s := { s with inputs := es }) (hs.idle hp) hok
  busy := nofun
  program := rfl
  clean := rfl
  work := by
    obtain ⟨-, -, -, -, hch, -⟩ := s.mixError_eq_none_iff.mp hok
    change _ = s.workAfter (s.framesBegun (0 / s.bs))
    rw [Nat.zero_div, State.framesBegun_zero (Nat.pos_of_ne_zero hch)]
    rfl
  held := List.nil_prefix
  mem := rfl

section
variable {s u t : State}

namespace State.Mixing

theorem bs_eq (h : s.Mixing u) : u.bs = s.bs := State.congr_program h.program State.bs
theorem len_eq (h : s.Mixing u) : u.len = s.len := State.congr_program h.program State.len
theorem req_eq (h : s.Mixing u) : u.req = s.req := State.congr_program h.program State.req
theorem count_eq (h : s.Mixing u) : u.count = s.count := State.congr_program h.program State.count
theorem slot_eq (h : s.Mixing u) : u.slot = s.slot := State.congr_program h.program State.slot

theorem outBase_eq (h : s.Mixing u) : u.outBase = s.outBase := State.congr_program h.program State.outBase

theorem outAddr_eq (h : s.Mixing u) : u.outAddr = s.outBase.toNat + (u.pos.toNat + u.beat) := by
  rw [State.outAddr, h.outBase_eq, Nat.add_assoc]

theorem accepted (h : s.Mixing u) : s.mixError = none :=
  (State.congr_program h.program State.mixError).symm.trans (h.inv.mixError h.busy)

theorem bs_pos (h : s.Mixing u) : 0 < s.bs := h.bs_eq ▸ h.inv.bs_pos h.busy

theorem channels_pos (h : s.Mixing u) : 0 < s.channels.toNat := by
  obtain ⟨-, -, -, -, hch, -⟩ := s.mixError_eq_none_iff.mp h.accepted
  exact Nat.pos_of_ne_zero hch

/-- POS is a whole number of samples. -/
theorem pos_eq (h : s.Mixing u) : u.pos.toNat / s.bs * s.bs = u.pos.toNat := by
  have hmod := (h.inv.pos_ok h.busy).1
  rw [h.bs_eq] at hmod
  exact Nat.div_mul_cancel (Nat.dvd_of_mod_eq_zero hmod)

/-- The sources below N have a WORK entry each. -/
theorem count_le_work (h : s.Mixing u) : s.count ≤ s.work.length := by
  obtain ⟨⟨-, -, hlen⟩, -⟩ := h.inv
  obtain ⟨-, hcount, -⟩ := u.mixError_eq_none_iff.mp (h.inv.mixError h.busy)
  rw [h.work, State.workAfter, List.length_mapIdx] at hlen
  rwa [← h.count_eq, hlen]

/-- The crossfade phase at POS leaves WORK as after the frame of that sample has begun (43_mixer R173). -/
theorem crossfadePhase_eq (h : s.Mixing u) :
    u.crossfadePhase = s.workAfter (u.pos.toNat / s.bs / s.channels.toNat + 1) := by
  have hstart : u.pos.toNat % u.ss = 0 ↔ u.pos.toNat / s.bs % s.channels.toNat = 0 := by
    have hss : u.ss = s.bs * s.channels.toNat := State.congr_program h.program State.ss
    rw [hss, ← h.pos_eq, Nat.mul_div_cancel _ h.bs_pos, Nat.mul_comm _ s.bs, Nat.mul_mod_mul_left,
      Nat.mul_eq_zero, or_iff_right h.bs_pos.ne']
  have hcfg : u.cfg = s.cfg := State.congr_program h.program State.cfg
  rw [State.crossfadePhase, h.work, State.framesBegun_eq h.channels_pos, h.count_eq, hcfg, h.slot_eq]
  simp only [hstart]
  split_ifs
  · exact (s.workAfter_succ _).symm
  · rfl

/-- The sources read as when the MIX was issued: what the run has written lies in the output window, apart
from them (43_mixer R169, 20_memory R67). -/
theorem read_source (h : s.Mixing u) (hn : u.nextPhase = .sample) {i : Nat} (hi : i < s.count) :
    Memory.readBytes u.mem ((s.slot i).bufBase.toNat + u.pos.toNat) s.bs =
      Memory.readBytes s.mem ((s.slot i).bufBase.toNat + u.pos.toNat) s.bs := by
  obtain ⟨-, hle, -⟩ := h.inv.sample_ok hn
  have hreq := h.inv.sample_le_req h.busy hle
  rw [h.bs_eq, h.req_eq] at hreq
  refine Memory.readBytes_congr fun x hlo hhi => ?_
  have hin : (s.inWindow i).has x = true := by
    simp only [Window.has_iff, State.inWindow]
    omega
  have hout : ¬ (s.outBase.toNat ≤ x ∧ x < s.outBase.toNat + s.len) := fun ho => by
    have happart := (State.windowsOk_of_accepted h.accepted).apart i hi
    rw [Window.meets_of_has ((Window.has_iff s.outWindow x).mpr ho) hin] at happart
    cases happart
  have htake := List.length_take_le' (u.pos.toNat + u.beat) s.output
  rw [s.length_output] at htake
  rw [h.mem, Memory.read_writeBytes_outside _ (by omega)]

/-- The sample computed at POS is the output's (43_mixer R174). -/
theorem sampleBytes_eq (h : s.Mixing u) (hn : u.nextPhase = .sample) :
    u.sampleBytes = s.outputSample (u.pos.toNat / s.bs) := by
  have hvalue : ∀ i ∈ List.range s.count,
      u.sourceValue u.crossfadePhase i = s.inputValue (u.pos.toNat / s.bs) i := by
    intro i hi
    have hi := List.mem_range.mp hi
    rw [State.sourceValue, State.inputValue, h.crossfadePhase_eq, h.bs_eq, h.slot_eq, h.read_source hn hi,
      h.pos_eq, State.getD_workAfter hi (hi.trans_le h.count_le_work)]
  rw [State.sampleBytes, State.sampleAcc, h.count_eq, List.map_congr_left hvalue, h.bs_eq]
  rfl

/-- The bytes that a sample step still has to write are the output's next ones. -/
theorem loads_isPrefix (h : s.Mixing u) (hn : u.nextPhase = .sample) {bytes : List Byte}
    (hl : u.Loads bytes) : bytes <+: s.output.drop (u.pos.toNat + u.beat) := by
  obtain ⟨hb, -, rfl⟩ | ⟨-, rfl⟩ := hl
  · obtain ⟨-, hle, -⟩ := h.inv.sample_ok hn
    rw [h.bs_eq, h.len_eq, ← h.pos_eq, ← Nat.succ_mul] at hle
    have hj : u.pos.toNat / s.bs < s.len / s.bs := (Nat.le_div_iff_mul_le h.bs_pos).mpr hle
    rw [hb, Nat.add_zero, h.sampleBytes_eq hn, ← h.pos_eq, Nat.mul_div_cancel _ h.bs_pos]
    exact s.outputSample_isPrefix hj
  · exact h.held

/-- The output's next bytes, stored at the next output byte, make more of it. -/
theorem store_isPrefix (h : s.Mixing u) (hle : u.pos.toNat + u.beat ≤ u.len) {bytes : List Byte}
    (hpre : bytes <+: s.output.drop (u.pos.toNat + u.beat)) :
    Memory.writeBytes u.mem u.outAddr bytes =
      Memory.writeBytes s.mem s.outBase.toNat (s.output.take (u.pos.toNat + u.beat + bytes.length)) := by
  rw [h.len_eq, ← s.length_output] at hle
  rw [h.mem, h.outAddr_eq, Memory.writeBytes_take_append hle hpre]

/-! ### Turns of the sequencer -/

theorem of_byte (h : s.Mixing u) (hn : u.nextPhase = .sample) (hmore : u.beat + 1 < u.bs)
    {bytes : List Byte} (hl : u.Loads bytes)
    (hinv : (State.endByte (bytes.drop 1) (u.storeOutput u.outAddr (bytes.take 1))).Inv) :
    s.Mixing (State.endByte (bytes.drop 1) (u.storeOutput u.outAddr (bytes.take 1))) := by
  have hpre := h.loads_isPrefix hn hl
  have hlen := h.inv.length_loads hn hl
  obtain ⟨-, hle, -⟩ := h.inv.sample_ok hn
  have hone : (bytes.take 1).length = 1 := by rw [List.length_take]; omega
  rw [State.storeOutput_clean h.clean] at hinv ⊢
  refine ⟨hinv, h.busy, h.program, h.clean, h.work, ?held, ?mem⟩
  case held =>
    have hdrop := hpre.drop 1
    rwa [List.drop_drop] at hdrop
  case mem =>
    have hstore := h.store_isPrefix (by omega) ((List.take_prefix 1 bytes).trans hpre)
    rwa [hone] at hstore

theorem of_sample (h : s.Mixing u) (hn : u.nextPhase = .sample) {bytes : List Byte} (hl : u.Loads bytes)
    (hinv : (State.endSample u.crossfadePhase (u.storeOutput u.outAddr bytes)).Inv) :
    s.Mixing (State.endSample u.crossfadePhase (u.storeOutput u.outAddr bytes)) := by
  have hlen := h.inv.length_loads hn hl
  obtain ⟨-, hle, -⟩ := h.inv.sample_ok hn
  have hpos := State.toNat_pos_add_bs hle
  rw [State.storeOutput_clean h.clean] at hinv ⊢
  refine ⟨hinv, State.advance_busy h.busy, h.program, h.clean, ?work, List.nil_prefix, ?mem⟩
  case work =>
    change _ = s.workAfter (s.framesBegun ((BitVec.ofNat 32 (u.pos.toNat + u.bs)).toNat / s.bs))
    rw [hpos, h.bs_eq, Nat.add_div_right _ h.bs_pos, State.framesBegun_succ h.channels_pos,
      ← h.crossfadePhase_eq]
    rfl
  case mem =>
    change _ = Memory.writeBytes s.mem _
      (s.output.take ((BitVec.ofNat 32 (u.pos.toNat + u.bs)).toNat + 0))
    rw [hpos, Nat.add_zero, ← hlen, ← Nat.add_assoc,
      ← h.store_isPrefix (by omega) (h.loads_isPrefix hn hl)]
    rfl

theorem of_tail (h : s.Mixing u) (hn : u.nextPhase = .tail)
    (hinv : (State.endTail (u.advance.storeOutput u.outAddr [0x00])).Inv) :
    s.Mixing (State.endTail (u.advance.storeOutput u.outAddr [0x00])) := by
  obtain ⟨-, hpos, hlt⟩ := h.inv.tail_ok hn
  have hzero : [0x00] <+: s.output.drop (u.pos.toNat + u.beat) :=
    s.zero_isPrefix_output (by rw [hpos, h.req_eq]; omega) (by rw [← h.len_eq]; omega)
  rw [State.storeOutput_clean (s := u.advance) h.clean] at hinv ⊢
  refine ⟨hinv, State.advance_busy (State.advance_busy h.busy), h.program, h.clean, h.work, ?held, ?mem⟩
  case held =>
    change u.held <+: _
    rw [h.inv.held_of_tail hn]
    exact List.nil_prefix
  case mem => exact h.store_isPrefix (by omega) hzero

/-- Each turn of the sequencer leaves the run in progress, or ends it with all of its output stored. -/
theorem of_turn (h : s.Mixing u) (ht : Turn u t) (hinv : t.Inv) : s.Mixing t ∨ s.Mixed t := by
  cases ht with
  | idle hn => exact absurd (u.nextPhase_eq_idle_iff.mp hn) h.busy
  | byte hn hmore hl => exact .inl (h.of_byte hn hmore hl hinv)
  | sample hn hl => exact .inl (h.of_sample hn hl hinv)
  | tail hn => exact .inl (h.of_tail hn hinv)
  | finish hn =>
    obtain ⟨hpos, hlen⟩ := h.inv.finish_ok hn
    refine .inr ⟨rfl, ?_⟩
    rw [State.finishRun_mem, h.mem, hpos, hlen, h.len_eq, ← s.length_output, List.take_length]

end State.Mixing

/-! ## Quiet events (70 R265, R266) -/

/-- All that a write to another register than CMD can do (10_state R20 to R39). -/
theorem State.writeReg_quiet {word : BitVec 9} {v : Word} (hw : word ≠ cmdPort)
    (h : s.writeReg word v = .next t) :
    t = s ∨ t = s.clearStatus v ∨ t = { s with irqEn := v.getLsbD 0 } ∨
      (s.phase = .idle ∧ ∃ r, t = s.putReg r v) := by
  obtain ⟨-, rfl⟩ | ⟨hr, -⟩ | ⟨-, rfl⟩ | ⟨-, rfl⟩ | ⟨r, -, -, -, -, ⟨-, rfl⟩ | ⟨hp, rfl⟩⟩ :=
    State.writeReg_next h
  · exact .inl rfl
  · exact absurd (regAt_eq_some_port hr) hw
  · exact .inr (.inl rfl)
  · exact .inr (.inr (.inl rfl))
  · exact .inl rfl
  · exact .inr (.inr (.inr ⟨hp, r, rfl⟩))

theorem State.putReg_frame (s : State) (r : Reg) (v : Word) :
    (s.putReg r v).phase = s.phase ∧ (s.putReg r v).mem = s.mem ∧ (s.putReg r v).inputs = s.inputs := by
  cases r <;> exact ⟨rfl, rfl, rfl⟩

/-- t is s but for STATUS, IRQ_EN, what the host has read and its duties. -/
abbrev State.SameButPort (s t : State) : Prop :=
  t =
    { s with
      done := t.done, err := t.err, dropped := t.dropped, irqEn := t.irqEn, regData := t.regData
      memData := t.memData, duties := t.duties, draws := t.draws }

/-- All that a quiet event can do: an access that leaves the run alone, a register write while idle, or a
turn of the sequencer, which a wait takes after its read and repeats. -/
inductive QuietEffect (s : State) (e : Event) : State → Prop
  | port {t : State} (kept : s.SameButPort t) : QuietEffect s e t
  | put (idle : s.phase = .idle) (r : Reg) (v : Word) : QuietEffect s e (s.putReg r v)
  | turn {t : State} (moved : Turn s t) : QuietEffect s e t
  | wait {t : State} (moved : Turn (s.readReg statusPort) t) :
      QuietEffect s e { t with inputs := e :: t.inputs }

theorem State.sameButPort_readReg (s : State) (word : BitVec 9) : s.SameButPort (s.readReg word) := by
  rw [State.readReg_eq]

theorem quietEffect_of_perform {e : Event} (hq : e.quiet = true) (h : s.perform e = .next t) :
    QuietEffect s e t := by
  cases e with
  | reg a =>
    cases a with
    | write word v =>
      obtain rfl | rfl | rfl | ⟨hp, r, rfl⟩ := State.writeReg_quiet (bne_iff_ne.mp hq) h
      exacts [.port rfl, .port rfl, .port rfl, .put hp r v]
    | read word => cases h; exact .port (s.sameButPort_readReg word)
  | memRead a n => cases h; exact .port rfl
  | wait =>
    obtain ⟨-, v, hv, rfl⟩ | ⟨-, rfl⟩ := State.poll_next h
    exacts [.wait (turn_of_runStep hv), .port (s.sameButPort_readReg statusPort)]
  | runStep => exact .turn (turn_of_runStep h)
  | runByte => exact .turn (turn_of_runByte h)
  | memWrite _ _ | reset _ => cases hq

theorem State.Mixing.of_port (h : s.Mixing u) (hinv : t.Inv) (hk : u.SameButPort t) : s.Mixing t := by
  rw [hk] at hinv ⊢
  exact ⟨hinv, h.busy, h.program, h.clean, h.work, h.held, h.mem⟩

theorem State.Mixing.of_inputs (h : s.Mixing u) (es : List Event) : s.Mixing { u with inputs := es } :=
  ⟨h.inv, h.busy, h.program, h.clean, h.work, h.held, h.mem⟩

/-- The invariant of the state before a repeated event is put back. -/
theorem State.Inv.of_inputs {es : List Event} (h : State.Inv { u with inputs := es }) : u.Inv := h

/-- A quiet event leaves the run in progress, or ends it with all of its output stored. -/
theorem State.Mixing.of_quiet {e : Event} (h : s.Mixing u) (he : QuietEffect u e t) (hinv : t.Inv) :
    s.Mixing t ∨ s.Mixed t := by
  cases he with
  | port hk => exact .inl (h.of_port hinv hk)
  | put hidle => exact absurd hidle h.busy
  | turn hturn => exact h.of_turn hturn hinv
  | wait hturn =>
    have hread := h.of_port (h.inv.readReg statusPort) (u.sameButPort_readReg statusPort)
    obtain hm | hm := hread.of_turn hturn hinv.of_inputs
    exacts [.inl (hm.of_inputs _), .inr ⟨hm.idle, hm.mem⟩]

/-- While idle no turn of the sequencer does anything (60_exceptions R250). -/
theorem Turn.eq_of_idle (h : Turn s t) (hp : s.phase = .idle) : t = s := by
  have hidle := s.nextPhase_eq_idle_iff.mpr hp
  cases h with
  | idle => rfl
  | byte hn | sample hn | tail hn | finish hn => rw [hidle] at hn; cases hn

/-- While idle a quiet event leaves the block idle and DMEM alone. -/
theorem QuietEffect.idle_and_mem {e : Event} (h : QuietEffect s e t) (hp : s.phase = .idle) :
    t.phase = .idle ∧ t.mem = s.mem := by
  cases h with
  | port hk => rw [hk]; exact ⟨hp, rfl⟩
  | put _ r v =>
    obtain ⟨hphase, hmem, -⟩ := s.putReg_frame r v
    exact ⟨hphase.trans hp, hmem⟩
  | turn hturn => rw [hturn.eq_of_idle hp]; exact ⟨hp, rfl⟩
  | wait hturn =>
    have hread := s.sameButPort_readReg statusPort
    rw [hturn.eq_of_idle (by rw [hread]; exact hp), hread]
    exact ⟨hp, rfl⟩

theorem Turn.inputs_eq (h : Turn s t) : t.inputs = s.inputs := by rw [h.sameButRun]

/-- A quiet event adds nothing to the list of events but itself. -/
theorem QuietEffect.inputs_subset {e : Event} (h : QuietEffect s e t) : t.inputs ⊆ e :: s.inputs := by
  cases h with
  | port hk => rw [hk]; exact List.subset_cons_self _ _
  | put _ r v => rw [(s.putReg_frame r v).2.2]; exact List.subset_cons_self _ _
  | turn hturn => rw [hturn.inputs_eq]; exact List.subset_cons_self _ _
  | @wait v hturn =>
    change e :: v.inputs ⊆ _
    rw [hturn.inputs_eq, s.sameButPort_readReg statusPort]
    exact List.Subset.refl _

/-! ## Every list of quiet events -/

/-- u stands in the run that an accepted MIX issued in s has started or after it, and what happens next is
quiet. -/
structure State.Undisturbed (s u : State) : Prop where
  run : s.Mixing u ∨ s.Mixed u
  quiet : ∀ e ∈ u.inputs, e.quiet = true

theorem State.Undisturbed.of_step (h : s.Undisturbed u) (hstep : step u = .next t) : s.Undisturbed t := by
  obtain ⟨hrun, hquiet⟩ := h
  cases hi : u.inputs with
  | nil =>
    rw [step_empty hi] at hstep
    have hturn := turn_of_runStep hstep
    refine ⟨?_, hturn.inputs_eq ▸ hquiet⟩
    obtain hm | hm := hrun
    · exact hm.of_turn hturn (hm.inv.runStep hstep)
    · rw [hturn.eq_of_idle hm.idle]
      exact .inr hm
  | cons e rest =>
    rw [step_event hi] at hstep
    rw [hi] at hquiet
    have he := quietEffect_of_perform (hquiet e List.mem_cons_self) hstep
    refine ⟨?_, fun e' he' => hquiet e' (he.inputs_subset he')⟩
    obtain hm | hm := hrun
    · exact (hm.of_inputs rest).of_quiet he ((hm.of_inputs rest).inv.perform hstep)
    · obtain ⟨hidle, hmem⟩ := he.idle_and_mem hm.idle
      exact .inr ⟨hidle, hmem.trans hm.mem⟩

/-- A run of k + 1 steps is a step and a run of k. -/
theorem run_succ_next {k : Nat} {u t : Sys2Proof.core.State} (h : Sys2Proof.core.run (k + 1) u = .next t) :
    ∃ v, step u = .next v ∧ Sys2Proof.core.run k v = .next t := by
  rw [Host.Core.run] at h
  split at h
  · next v hv => exact ⟨v, hv, h⟩
  · cases h
  · cases h

/-- What every step keeps, any number of steps keep. -/
theorem run_induction {P : State → Prop} (hstep : ∀ {u t}, P u → step u = .next t → P t) (k : Nat)
    {u t : State} (hu : P u) (h : Sys2Proof.core.run k u = .next t) : P t := by
  induction k generalizing u with
  | zero => cases h; exact hu
  | succ k ih =>
    obtain ⟨v, hv, hrest⟩ := run_succ_next h
    exact ih (hstep hu hv) hrest

end

end Sys2Proof.Machine
end

section
/-! The statements about DMEM and the bytes a run stores, settled. -/

namespace Sys2Proof.Machine

/-- Settles O33: a sample step is its load, its store and its end, and a single byte stores the first of the
bytes loaded. -/
theorem sampleStepMixesOneSample : Obligations.SampleStepMixesOneSample := by
  intro s w acc bytes hs hp hclean hle hw hacc hbytes
  have hn : s.nextPhase = .sample := s.nextPhase_eq_sample_iff.mpr ⟨hp, decide_eq_true hle⟩
  have hwork : w = s.crossfadePhase := hw.trans s.crossfadePhase_eq.symm
  have hsum : acc = s.sampleAcc := by
    rw [hacc, s.sampleAcc_eq, ← hwork]
    rfl
  have hl : s.Loads bytes := by
    rw [hbytes, hsum]
    exact hs.loads hn
  refine ⟨?step, fun hlast => State.runByte_last (by omega), fun hmore => ?byte⟩
  case step =>
    rw [hs.runStep_sample hn hl, State.storeOutput_clean hclean, ← hwork]
    exact congrArg Host.Outcome.next
      (State.endSample_eq (u := { s with mem := s.mem.writeBytes s.outAddr bytes }) hp hle w)
  case byte =>
    rw [hs.runByte_sample hn hmore hl, State.storeOutput_clean hclean]
    rfl

/-- Settles O36: each turn stores its bytes, or ends the run, and nothing else. -/
theorem runStepsStoreOnlyTheirBytes : Obligations.RunStepsStoreOnlyTheirBytes := by
  intro s t h
  have hturn : Turn s t := h.elim turn_of_runStep turn_of_runByte
  exact ⟨hturn.sameButRun, hturn.kept_before_finish, fun a ha => hturn.read_outside ha⟩

/-- Settles O38: every quiet step keeps the run undisturbed, and in such a run DMEM holds the output's bytes
up to POS + beat. -/
theorem outputIsAlwaysAPrefix : Obligations.OutputIsAlwaysAPrefix := by
  intro s t u es k hs hp hok hes hexec hrun
  have hacc := s.mixError_eq_none_iff_acceptsMix.mpr hok
  have hstart := exec_mix_accepted (s := { s with inputs := es }) hp hacc
  cases hstart.symm.trans hexec
  have hend := run_induction State.Undisturbed.of_step k
    ⟨.inl (hs.mixing_start hp hacc es), hes⟩ hrun
  refine ⟨?_, rfl⟩
  obtain hm | hm := hend.run
  · rw [if_neg hm.busy, hm.mem]
  · rw [if_pos hm.idle, hm.mem, ← State.len, ← s.length_output, List.take_length]

/-- Settles O39: the invariant keeps every access of a run inside DMEM, and each turn of a run makes
progress. -/
theorem runsNeverFault : Obligations.RunsNeverFault := by
  intro s hs
  exact ⟨exists_step hs, hs.exists_perform, fun hb t h =>
    hs.turn_progress hb (h.elim turn_of_runStep turn_of_runByte)⟩

/-- Settles O59: a write by the duties it touches, and a read byte by byte. -/
theorem hostAccessesToDmem : Obligations.HostAccessesToDmem := by
  intro s a bytes n
  refine ⟨fun hwf hin hduty => ?inside, fun hpast => ?past, ?read⟩
  case inside =>
    have hkept : ∀ d ∈ s.duties, ¬ d.TouchedBy a.toNat bytes.length := by
      rintro d hd ⟨x, hlo, hhi, htouch⟩
      obtain ⟨hout, hins⟩ := hduty d hd x hlo hhi
      obtain hx | ⟨v, hv, hx⟩ := htouch
      · rw [hout] at hx; cases hx
      · rw [hins v hv] at hx; cases hx
    refine ⟨_, rfl, ?_⟩
    rw [State.hostWrite_inside hin, State.hostStore_unbroken hkept]
    exact ⟨rfl, fun x => Memory.read_writeBytes hwf _ x bytes⟩
  case past => exact congrArg Host.Outcome.next (State.hostWrite_past hpast)
  case read =>
    refine ⟨_, rfl, rfl, s.length_hostRead _ n, fun hin => ?_, fun k => State.hostRead_existing,
      fun k => State.hostRead_free⟩
    rw [State.hostRead_inside hin]

end Sys2Proof.Machine
end

section
/-! The decoder and the encoder are inverse to each other (30_encoding R81 to R83, R87), and the words that
spell a command by arithmetic are the words the decoder accepts. -/

namespace Sys2Proof

/-! ## A word by its fields (30_encoding R80) -/

theorem wordOp_eq (v : Word) : wordOp v = v.toNat % 2 ^ 8 := by
  simp [wordOp, BitVec.extractLsb'_toNat]

theorem wordW_eq (v : Word) : wordW v = v.toNat / 2 ^ 8 % 2 ^ 8 := by
  simp [wordW, BitVec.extractLsb'_toNat, Nat.shiftRight_eq_div_pow]

theorem wordIdx_eq (v : Word) : wordIdx v = v.toNat / 2 ^ 16 % 2 ^ 16 := by
  simp [wordIdx, BitVec.extractLsb'_toNat, Nat.shiftRight_eq_div_pow]

theorem wordRsv_eq (v : Word) : wordRsv v = v.toNat / 2 ^ 32 := by
  have hv := v.isLt
  rw [wordRsv, BitVec.extractLsb'_toNat, Nat.shiftRight_eq_div_pow]
  omega

theorem wordW_lt (v : Word) : wordW v < 2 ^ 8 := (v.extractLsb' 8 8).isLt

theorem wordIdx_lt (v : Word) : wordIdx v < 2 ^ 16 := (v.extractLsb' 16 16).isLt

/-! ## The rows of the opcode table (30_encoding R81, R82) -/

/-- The opcodes of each format. -/
def Format.opcodes : Format → List Nat
  | .c0 => [0x00, 0x01, 0x20, 0x30]
  | .cw => [0x10, 0x11]
  | .ci => [0x21, 0x40]

theorem Format.exists_iff {P : Format → Prop} : (∃ f, P f) ↔ P .c0 ∨ P .cw ∨ P .ci := by
  constructor
  · rintro ⟨_ | _ | _, h⟩
    exacts [.inl h, .inr (.inl h), .inr (.inr h)]
  · rintro (h | h | h) <;> exact ⟨_, h⟩

/-- A row of format f stands at each of the opcodes of f and at no other. -/
theorem exists_opcodeRow_iff {v : Word} {f : Format} :
    (∃ i, opcodeRow v = some (f, i)) ↔ wordOp v ∈ f.opcodes := by
  unfold opcodeRow
  split
  case h_9 => cases f <;> simp_all [Format.opcodes]
  all_goals next hop => rw [hop]; cases f <;> simp [Format.opcodes]

/-- The operands of a row's command come from its word, so they fit their fields. -/
theorem opcodeRow_wellFormed {v : Word} {f : Format} {i : Instr} (h : opcodeRow v = some (f, i)) :
    i.WellFormed := by
  unfold opcodeRow at h
  split at h <;> cases h
  case h_3 | h_4 => exact decide_eq_true (wordW_lt v)
  case h_6 | h_8 => exact decide_eq_true (wordIdx_lt v)
  all_goals rfl

/-- Where a row's format admits the word, its command has the word's fields. -/
theorem opcodeRow_fields {v : Word} {f : Format} {i : Instr} (h : opcodeRow v = some (f, i))
    (hadm : f.admits v = true) :
    i.opcode = wordOp v ∧ i.fieldW = wordW v ∧ i.fieldIdx = wordIdx v := by
  unfold opcodeRow at h
  split at h <;> cases h
  all_goals
    next hop =>
      simp only [Format.admits, Bool.and_eq_true, beq_iff_eq] at hadm
      simp [Instr.opcode, Instr.fieldW, Instr.fieldIdx, hop, hadm]

end Sys2Proof

namespace Sys2Proof.Machine

/-! ## Decoding and encoding -/

/-- Words with the same fields are the same word. -/
theorem word_ext {v w : Word} (hop : wordOp v = wordOp w) (hw : wordW v = wordW w)
    (hidx : wordIdx v = wordIdx w) (hrsv : wordRsv v = wordRsv w) : v = w := by
  apply BitVec.eq_of_toNat_eq
  rw [toNat_eq_fields v, toNat_eq_fields w, hop, hw, hidx, hrsv]

/-- Every word that decodes to a command is the command's own (30_encoding R81, R87). -/
theorem encode_of_decode {v : Word} {i : Instr} (h : decode v = .command i) :
    i.WellFormed ∧ encode i = v := by
  obtain ⟨f, hrow, hrsv, hadm⟩ := decode_eq_command_iff.mp h
  have hwf := opcodeRow_wellFormed hrow
  obtain ⟨hop, hw, hidx⟩ := opcodeRow_fields hrow hadm
  obtain ⟨hop', hw', hidx', hrsv'⟩ := encode_fields i hwf
  exact ⟨hwf, word_ext (hop'.trans hop) (hw'.trans hw) (hidx'.trans hidx) (hrsv'.trans hrsv.symm)⟩

/-- A command and its word determine each other. -/
theorem decode_eq_command_iff_encode {v : Word} {i : Instr} :
    decode v = .command i ↔ i.WellFormed ∧ encode i = v := by
  refine ⟨encode_of_decode, ?_⟩
  rintro ⟨hwf, rfl⟩
  exact decode_encode hwf

/-- The words that decode are those with RSV 0 and an opcode whose format admits them. -/
theorem exists_decode_iff (v : Word) :
    (∃ i, decode v = .command i) ↔
      wordRsv v = 0 ∧ ∃ f : Format, wordOp v ∈ f.opcodes ∧ f.admits v = true := by
  simp only [decode_eq_command_iff, ← exists_opcodeRow_iff]
  constructor
  · rintro ⟨i, f, hrow, hrsv, hadm⟩
    exact ⟨hrsv, f, ⟨i, hrow⟩, hadm⟩
  · rintro ⟨hrsv, f, ⟨i, hrow⟩, hadm⟩
    exact ⟨i, f, hrow, hrsv, hadm⟩

/-- The decoder accepts the words of 30_encoding R83, format by format. -/
theorem exists_decode_iff_spellsCommand (v : Word) : (∃ i, decode v = .command i) ↔ SpellsCommand v := by
  rw [exists_decode_iff, Format.exists_iff, wordRsv_eq]
  simp only [Format.opcodes, Format.admits, List.mem_cons, List.not_mem_nil, or_false, Bool.and_eq_true,
    beq_iff_eq, wordOp_eq, wordW_eq, wordIdx_eq]
  refine and_congr_right fun hrsv => or_congr ?c0 (or_congr ?cw ?ci)
  case c0 => omega
  case cw => omega
  case ci => rfl

/-- While idle a word that spells no command is rejected with ILLEGAL_CMD (30_encoding R83, R87). -/
theorem State.writeCmd_illegal {s : State} {v : Word} (hp : s.phase = .idle)
    (h : ¬∃ i, decode v = .command i) : s.writeCmd v = .next (s.rejected 0x01 0) := by
  cases hd : decode v with
  | command i => exact absurd ⟨i, hd⟩ h
  | illegal e =>
    have hidle : ¬ s.busy = true := by simp [State.busy, hp]
    rw [State.writeCmd, if_neg hidle, hd]
    rfl

end Sys2Proof.Machine
end

section
/-! The host's duties under a register read and under a wait (70 R266). -/

namespace Sys2Proof.Machine

/-- STATUS is read at its own offset only. -/
theorem regAt_eq_status_iff {c : Config} {word : BitVec 9} :
    regAt c word = some .status ↔ word = portOf 0x010 :=
  ⟨regAt_eq_some_port, by rintro rfl; rfl⟩

theorem State.endDuties_duties (s : State) :
    s.endDuties.duties = if s.phase = .idle then [] else s.duties := by
  by_cases hp : s.phase = .idle <;> simp [State.endDuties, State.busy, hp]

/-- Only a read of STATUS with BUSY = 0 ends the host's duties (70 R266). -/
theorem State.duties_readReg (s : State) (word : BitVec 9) :
    (s.readReg word).duties = if s.phase = .idle ∧ word = portOf 0x010 then [] else s.duties := by
  by_cases hs : regAt s.cfg word = some .status
  · rw [State.readReg, hs, regAt_eq_status_iff.mp hs]
    simp [State.endDuties_duties]
  · rw [if_neg fun h => hs (regAt_eq_status_iff.mpr h.2)]
    unfold State.readReg
    split
    · rfl
    · next hr => exact absurd hr hs
    · rfl

theorem State.duties_readReg_of_busy {s : State} (hp : s.phase ≠ .idle) (word : BitVec 9) :
    (s.readReg word).duties = s.duties := by
  rw [State.duties_readReg, if_neg fun h => hp h.1]

theorem Turn.duties_eq {s t : State} (h : Turn s t) : t.duties = s.duties := by rw [h.sameButRun]

/-- A wait while idle is one read of STATUS that ends the duties. -/
theorem State.perform_wait_idle {s : State} (hp : s.phase = .idle) :
    s.perform .wait = .next { s with regData := s.statusWord, duties := [] } := by
  have hidle : ¬ s.busy = true := by simp [State.busy, hp]
  rw [State.perform, State.poll, if_neg hidle, State.readReg_eq, State.readReg_regData (r := .status) rfl,
    State.duties_readReg, if_pos ⟨hp, rfl⟩]
  rfl

end Sys2Proof.Machine
end

section
/-! The statements about the command word and the reads of the register port, settled. -/

namespace Sys2Proof.Machine

/-- Settles O1: the fields of a well-formed command's word select its row and give its operands back. -/
theorem decodeOfEncode : Obligations.DecodeOfEncode := fun _ => decode_encode

/-- Settles O2: the row, RSV and the format fix all four fields of the word. -/
theorem encodeOfDecode : Obligations.EncodeOfDecode := fun _ _ => encode_of_decode

/-- Settles O3: the decoder accepts the words of R83, and a CMD write rejects what it does not accept. -/
theorem illegalWordsAreRejected : Obligations.IllegalWordsAreRejected := by
  intro v
  have hspell := exists_decode_iff_spellsCommand v
  exact ⟨hspell, fun s hp hv => State.writeCmd_illegal hp (mt hspell.mp hv)⟩

/-- Settles O4: each word written out is the encoding of its command. -/
theorem writtenOutWordsDecode : Obligations.WrittenOutWordsDecode := by
  unfold Obligations.WrittenOutWordsDecode
  simp only [decode_eq_command_iff_encode]
  decide

/-- Settles O58: a read leaves all but its value and the duties, and a wait is a read of STATUS and, while
BUSY, a run step, which keeps the duties. -/
theorem registerReadsHaveNoEffect : Obligations.RegisterReadsHaveNoEffect := by
  intro s
  refine ⟨fun word => ?read, State.perform_wait_idle, fun t hp h => ?busy⟩
  case read => rw [← State.duties_readReg]; exact s.readReg_eq word
  case busy =>
    obtain ⟨-, u, hu, rfl⟩ | ⟨hidle, -⟩ := State.poll_next h
    · exact (turn_of_runStep hu).duties_eq.trans (State.duties_readReg_of_busy hp statusPort)
    · exact absurd hidle hp

end Sys2Proof.Machine
end

section
/-! The bytes of a sample and their integer (00_scope R9, R13, R14), and the words of format CW
(30_encoding R81). -/

namespace Sys2Proof.Machine

/-! ## Little-endian bytes -/

theorem foldr_bytes (bytes : List Byte) :
    (bytes.map BitVec.toNat).foldr (fun b acc => b + 256 * acc) 0 = fromLE bytes := by
  induction bytes with
  | nil => rfl
  | cons b bytes ih => rw [List.map_cons, List.foldr_cons, ih, fromLE]

/-- The same integer, from bytes read as integers. -/
theorem foldr_byteInts (bytes : List Byte) :
    ((bytes.map BitVec.toNat).foldr (fun b acc => b + 256 * acc) 0 : Int) = fromLE bytes := by
  simp only [List.bind_eq_flatMap, List.pure_def, List.flatMap_map]
  induction bytes with
  | nil => rfl
  | cons b bytes ih =>
    rw [List.flatMap_cons, List.singleton_append, List.foldr_cons, ih, fromLE, Nat.cast_add, Nat.cast_mul,
      Nat.cast_ofNat]

theorem fromLE_lt (bytes : List Byte) : fromLE bytes < 2 ^ (8 * bytes.length) := by
  induction bytes with
  | nil => exact Nat.one_pos
  | cons b bytes ih =>
    have hb := b.isLt
    rw [fromLE, List.length_cons, Nat.mul_succ, pow_add]
    omega

/-- The bytes of n read as n, its bits past them dropped. -/
theorem fromLE_toLE (w n : Nat) : fromLE (toLE w n) = n % 2 ^ (8 * w) := by
  induction w generalizing n with
  | zero => rw [Nat.mul_zero, pow_zero, Nat.mod_one]; rfl
  | succ w ih =>
    rw [toLE, fromLE, ih, BitVec.toNat_ofNat, Nat.mul_succ, pow_add, Nat.mul_comm (2 ^ (8 * w)),
      Nat.mod_mul]
    rfl

/-- Bytes are those of the integer they read as. -/
theorem toLE_fromLE (bytes : List Byte) : toLE bytes.length (fromLE bytes) = bytes := by
  induction bytes with
  | nil => rfl
  | cons b bytes ih =>
    have hb := b.isLt
    have hhead : BitVec.ofNat 8 (b.toNat + 256 * fromLE bytes) = b := by
      apply BitVec.eq_of_toNat_eq
      rw [BitVec.toNat_ofNat]
      omega
    rw [List.length_cons, fromLE, toLE, hhead,
      show (b.toNat + 256 * fromLE bytes) / 256 = fromLE bytes by omega, ih]

/-- Byte k of n holds the bits from 8k on (30_encoding R84). -/
theorem getElem?_toLE {w k : Nat} (hk : k < w) (n : Nat) :
    (toLE w n)[k]? = some (BitVec.ofNat 8 (n / 2 ^ (8 * k))) := by
  induction w generalizing k n with
  | zero => omega
  | succ w ih =>
    cases k with
    | zero => simp [toLE]
    | succ k =>
      rw [toLE, List.getElem?_cons_succ, ih (by omega), Nat.div_div_eq_div_mul, Nat.mul_succ,
        Nat.add_comm, pow_add]
      rfl

/-- Byte k of a word's bytes is the word's byte k. -/
theorem getElem?_toLE_toNat {w k : Nat} (hk : k < w) (x : Word) :
    (toLE w x.toNat)[k]? = some (x.extractLsb' (8 * k) 8) := by
  rw [getElem?_toLE hk, ← Nat.shiftRight_eq_div_pow]
  rfl

theorem toLE_zero (w : Nat) : toLE w 0 = List.replicate w 0 := by
  induction w with
  | zero => rfl
  | succ w ih => rw [toLE, Nat.zero_div, ih, List.replicate_succ]; rfl

/-- Two lists of as many bytes agree when they read as the same integer. -/
theorem eq_toLE_iff {w n : Nat} {bytes : List Byte} (hlen : bytes.length = w) (hn : n < 2 ^ (8 * w)) :
    bytes = toLE w n ↔ fromLE bytes = n := by
  constructor
  · rintro rfl
    rw [fromLE_toLE, Nat.mod_eq_of_lt hn]
  · rintro rfl
    rw [← hlen, toLE_fromLE]

/-- The two's-complement integer of a number of that many bits (00_scope R9). -/
theorem sext_eq {bits n : Nat} (hbits : 0 < bits) (hn : n < 2 ^ bits) :
    sext bits n = if n < 2 ^ (bits - 1) then (n : Int) else n - 2 ^ bits := by
  have hhalf : 2 ^ bits = 2 * 2 ^ (bits - 1) := by rw [← pow_succ', Nat.sub_add_cancel hbits]
  rw [sext, BitVec.toInt_eq_toNat_cond, BitVec.toNat_ofNat, Nat.mod_eq_of_lt hn, Nat.cast_pow,
    Nat.cast_ofNat]
  exact if_congr (by omega) rfl rfl

/-! ## The widths (00_scope R14) -/

theorem natCast_maxMag (w : Nat) : (maxMag w : Int) = 2 ^ (8 * w - 1) - 1 := by
  rw [maxMag, Nat.cast_pred (by positivity), Nat.cast_pow, Nat.cast_ofNat]

/-- MAXMAG is the largest code, one less than half as many codes as there are. -/
theorem maxMag_succ (w : Nat) : maxMag w + 1 = 2 ^ (8 * w - 1) := Nat.sub_add_cancel Nat.one_le_two_pow

theorem two_pow_width {w : Nat} (h1 : 1 ≤ w) : 2 ^ (8 * w) = 2 * (maxMag w + 1) := by
  rw [maxMag_succ, ← pow_succ', Nat.sub_add_cancel (by omega)]

/-- Every code has an exact binary64 value (40_codec R100). -/
theorem maxMag_lt {w : Nat} (h4 : w ≤ 4) : maxMag w < 2 ^ 31 := by
  have hle : 2 ^ (8 * w - 1) ≤ 2 ^ 31 := Nat.pow_le_pow_right (by decide) (by omega)
  have := maxMag_succ w
  omega

theorem maxMag_pos {w : Nat} (h1 : 1 ≤ w) : 0 < maxMag w := by
  have hle : 2 ^ 1 ≤ 2 ^ (8 * w - 1) := Nat.pow_le_pow_right (by decide) (by omega)
  have := maxMag_succ w
  omega

theorem width_bounds {c : Config} {w : Nat} (h : c.AcceptsWidth w) : 1 ≤ w ∧ w ≤ 4 := by
  omega

/-! ## The words of format CW -/

/-- While idle, a word whose opcode takes a width is the command of its W if every higher bit is 0, else
ILLEGAL_CMD (30_encoding R81, R83). -/
theorem State.writeCmd_width {s : State} {v : Word} {i : Nat → Instr} (hp : s.phase = .idle)
    (hrow : opcodeRow v = some (.cw, i (wordW v))) :
    s.writeCmd v =
      if v.toNat < 2 ^ 16 then exec (i (v.toNat / 2 ^ 8)) s else .next (s.rejected 0x01 0) := by
  have hrsv := wordRsv_eq v
  have hidx := wordIdx_eq v
  split_ifs with hv
  · have hw : wordW v = v.toNat / 2 ^ 8 := by rw [wordW_eq]; omega
    refine State.writeCmd_command s (decode_eq_command_iff.mpr ⟨.cw, hw ▸ hrow, by omega, ?_⟩)
    exact beq_iff_eq.mpr (by omega)
  · refine State.writeCmd_illegal hp ?_
    rintro ⟨j, hj⟩
    obtain ⟨f, hrow', hrsv', hadm⟩ := decode_eq_command_iff.mp hj
    obtain ⟨rfl, -⟩ := Prod.mk.inj (Option.some.inj (hrow.symm.trans hrow'))
    have hidx' : wordIdx v = 0 := beq_iff_eq.mp hadm
    omega

theorem opcodeRow_dec {v : Word} (h : v.toNat % 2 ^ 8 = 0x10) :
    opcodeRow v = some (.cw, .dec (wordW v)) := by
  rw [opcodeRow, wordOp_eq, h]; rfl

theorem opcodeRow_enc {v : Word} (h : v.toNat % 2 ^ 8 = 0x11) :
    opcodeRow v = some (.cw, .enc (wordW v)) := by
  rw [opcodeRow, wordOp_eq, h]; rfl

/-! ## DEC and ENC (40_codec R110, R112) -/

/-- While idle, a command that takes a width puts its value into RES, or reports FMT_WIDTH (30_encoding
R85). -/
theorem exec_width {s : State} {i : Instr} {w : Nat} (value : State → Word) (hp : s.phase = .idle)
    (hrule : ∀ a, commandRule i a =
      if widthLegal a.cfg w then { a with res := value a }.complete else a.raise .fmtWidth 0) :
    (s.cfg.AcceptsWidth w → exec i s = .next { s.completed with res := value s.accept }) ∧
      (¬s.cfg.AcceptsWidth w → exec i s = .next (s.rejected 0x05 0)) := by
  rw [exec_eq_issue, State.issue_idle hp, hrule, State.accept_cfg, ← widthLegal_iff]
  exact ⟨fun hw => by rw [if_pos hw]; rfl, fun hw => by rw [if_neg hw]; rfl⟩

theorem exec_dec {s : State} (hp : s.phase = .idle) (w : Nat) :
    (s.cfg.AcceptsWidth w →
        exec (.dec w) s = .next { s.completed with res := decodeSample (toLE w s.opa.toNat) w }) ∧
      (¬s.cfg.AcceptsWidth w → exec (.dec w) s = .next (s.rejected 0x05 0)) :=
  exec_width (fun a => decodeSample (a.opaSample w) w) hp fun _ => rfl

theorem exec_enc {s : State} (hp : s.phase = .idle) (w : Nat) :
    (s.cfg.AcceptsWidth w →
        exec (.enc w) s = .next { s.completed with res := sampleWord (encodeSample s.opa w) }) ∧
      (¬s.cfg.AcceptsWidth w → exec (.enc w) s = .next (s.rejected 0x05 0)) :=
  exec_width (fun a => sampleWord (encodeSample a.opa w)) hp fun _ => rfl

/-- Every command is dropped while BUSY (44_control R202). -/
theorem exec_busy {s : State} (hp : s.phase ≠ .idle) (i : Instr) : exec i s = .next s.discarded := by
  rw [exec_eq_issue, State.issue_busy hp]
  rfl

end Sys2Proof.Machine
end

section
/-! A rounded quotient against the binary64 values around it, by magnitude: it stays on their side, and no
other is nearer (00_scope R10). -/

namespace Sys2Proof.Machine

/-! ## Patterns by their magnitude -/

/-- The binade of a normal value. -/
theorem log2_normal {f : Nat} (hf : f < 2 ^ 52) (e : Nat) : Nat.log2 ((2 ^ 52 + f) * 2 ^ e) = 52 + e := by
  have hpos : 0 < 2 ^ e := by positivity
  refine (Nat.log2_eq_iff (by positivity)).2 ⟨?_, ?_⟩
  · rw [pow_add]
    exact Nat.mul_le_mul_right _ (by omega)
  · rw [Nat.add_right_comm, pow_add]
    exact Nat.mul_lt_mul_of_pos_right (by omega) hpos

/-- A pattern is given by its sign and its units. -/
theorem eq_of_fUnits_eq {x y : F64} (hsign : fSign x = fSign y) (h : fUnits x = fUnits y) : x = y := by
  have hx := fFrac_lt x
  have hy := fFrac_lt y
  obtain ⟨hexp, hfrac⟩ : fExp x = fExp y ∧ fFrac x = fFrac y := by
    unfold fUnits at h
    split_ifs at h with hx0 hy0 hy0
    · exact ⟨hx0.trans hy0.symm, h⟩
    · have := Nat.le_mul_of_pos_right (2 ^ 52 + fFrac y) (Nat.two_pow_pos (fExp y - 1))
      omega
    · have := Nat.le_mul_of_pos_right (2 ^ 52 + fFrac x) (Nat.two_pow_pos (fExp x - 1))
      omega
    · have he : 52 + (fExp x - 1) = 52 + (fExp y - 1) := by
        rw [← log2_normal hx, h, log2_normal hy]
      rw [Nat.add_left_cancel he] at h
      have := Nat.eq_of_mul_eq_mul_right (Nat.two_pow_pos _) h
      omega
  rw [← fPattern_parts x, ← fPattern_parts y, hsign, hexp, hfrac]

@[simp] theorem fUnits_fOne : fUnits fOne = fOneUnits := by decide +kernel

theorem fabs_eq_fOne_iff {x : F64} (h : fIsNaN x = false) : fabs x = fOne ↔ fUnits x = fOneUnits := by
  obtain ⟨he, hf⟩ := fabs_fields h
  have hu : fUnits (fabs x) = fUnits x := by rw [fUnits, he, hf, fUnits]
  refine ⟨fun heq => by rw [← hu, heq, fUnits_fOne], fun hx => eq_of_fUnits_eq ?_ ?_⟩
  · rw [(fabs_of_not_nan h).1]; decide
  · rw [hu, hx, fUnits_fOne]

/-- A magnitude is at most 2^53 spacings of a power of two. -/
theorem exists_fUnits_eq (x : F64) : ∃ m e, m < 2 ^ 53 ∧ fUnits x = m * 2 ^ e := by
  have hf := fFrac_lt x
  unfold fUnits
  split_ifs
  · exact ⟨fFrac x, 0, by omega, by rw [pow_zero, mul_one]⟩
  · exact ⟨2 ^ 52 + fFrac x, _, by omega, rfl⟩

/-- From 2^52 spacings on there is no value between two neighbours of them. -/
theorem fUnits_add_le {x : F64} {j e : Nat} (hj : 2 ^ 52 < j) (h : fUnits x < j * 2 ^ e) :
    fUnits x + 2 ^ e ≤ j * 2 ^ e := by
  obtain ⟨i, hi, hx⟩ : ∃ i < j, fUnits x ≤ i * 2 ^ e := by
    by_cases hx : 2 ^ 52 * 2 ^ e ≤ fUnits x
    · obtain ⟨q, hq⟩ := pow_dvd_fUnits hx
      rw [hq, Nat.mul_comm] at h ⊢
      exact ⟨q, Nat.lt_of_mul_lt_mul_right h, le_rfl⟩
    · exact ⟨2 ^ 52, hj, (not_le.mp hx).le⟩
  calc fUnits x + 2 ^ e ≤ i * 2 ^ e + 2 ^ e := by omega
    _ = (i + 1) * 2 ^ e := (Nat.succ_mul ..).symm
    _ ≤ j * 2 ^ e := Nat.mul_le_mul_right _ hi

/-! ## Rounding by magnitude -/

/-- Numerator and denominator in other units round alike. -/
theorem fRound_mul_right (neg : Bool) (n d : Nat) {c : Nat} (hc : 0 < c) :
    fRound neg (n * c) (d * c) = fRound neg n d := by
  have hk : fScale (n * c) (d * c) = fScale n d := by rw [fScale, Nat.mul_div_mul_right _ _ hc, fScale]
  have hr (D : Nat) : roundHalfEven (n * c) (D * c) = roundHalfEven n D := by
    unfold roundHalfEven
    rw [Nat.mul_div_mul_right _ _ hc, Nat.mul_mod_mul_right, ← Nat.mul_assoc]
    simp only [Nat.mul_lt_mul_right hc]
  rw [fRound_eq, fRound_eq, hk, significand, hk, Nat.mul_right_comm, hr, significand]

section
variable {n d : Nat} (neg : Bool) (hd : 0 < d) (hn : n < (2 ^ 54 - 1) * 2 ^ 2044 * d) (y : F64)
include hd hn

/-- No value is nearer to a quotient than the rounded one. -/
theorem fUnits_fRound_nearest :
    ((n : Int) - fUnits (fRound neg n d) * d).natAbs ≤ ((n : Int) - fUnits y * d).natAbs := by
  obtain ⟨z, hz⟩ : ∃ z, fInt z = fUnits y := by
    cases hs : fSign y
    · exact ⟨y, by rw [fInt, hs]; rfl⟩
    · exact ⟨fneg y, by rw [fInt, fSign_fneg, fUnits_fneg, hs]; rfl⟩
  have hnear := (significand_nearest (n := n) hd z).1
  rw [hz] at hnear
  rw [(fRound_finite neg hd hn).2.1]
  exact_mod_cast hnear

/-- A quotient that is not above a value is rounded to one that is not above it. -/
theorem fUnits_fRound_le (h : n ≤ fUnits y * d) : fUnits (fRound neg n d) ≤ fUnits y := by
  have hnear := fUnits_fRound_nearest neg hd hn y
  by_contra! hlt
  have := Nat.mul_lt_mul_of_pos_right hlt hd
  zify at this h
  omega

/-- A quotient that is not below a value is rounded to one that is not below it. -/
theorem le_fUnits_fRound (h : fUnits y * d ≤ n) : fUnits y ≤ fUnits (fRound neg n d) := by
  have hnear := fUnits_fRound_nearest neg hd hn y
  by_contra! hlt
  have := Nat.mul_lt_mul_of_pos_right hlt hd
  zify at this h
  omega

end

end Sys2Proof.Machine
end

section
/-! Decode by the integer of the bytes: one rounding of its quotient by MAXMAG (40_codec R100 to R102). -/

namespace Sys2Proof.Machine

/-! ## Exact integers -/

theorem fSign_i2f (n : Int) : fSign (i2f n) = decide (n < 0) := fSign_fRound _ _ _

theorem fUnits_i2f {n : Int} (hn : n.natAbs ≤ 2 ^ 53) : fUnits (i2f n) = n.natAbs * fOneUnits := by
  rw [← natAbs_fInt, fInt_i2f hn, Int.natAbs_mul, Int.natAbs_natCast]

/-- A whole number far below the largest finite value. -/
theorem units_lt_overflow {u : Nat} (hu : u ≤ 2 ^ 53 * fOneUnits) (d : Nat) (hd : 0 < d) :
    u < (2 ^ 54 - 1) * 2 ^ 2044 * d := by
  refine lt_of_lt_of_le (hu.trans_lt ?_) (Nat.le_mul_of_pos_right _ hd)
  decide +kernel

theorem finite_i2f {n : Int} (hn : n.natAbs ≤ 2 ^ 53) : FiniteF64 (i2f n) :=
  (fRound_finite _ Nat.one_pos (units_lt_overflow (Nat.mul_le_mul_right _ hn) 1 Nat.one_pos)).1

section
variable {w : Nat}

theorem finite_maxMag (h4 : w ≤ 4) : FiniteF64 (i2f (maxMag w)) :=
  finite_i2f (by have := maxMag_lt h4; omega)

theorem fUnits_maxMag (h4 : w ≤ 4) : fUnits (i2f (maxMag w)) = maxMag w * fOneUnits := by
  rw [fUnits_i2f (by have := maxMag_lt h4; omega), Int.natAbs_natCast]

theorem fSign_maxMag (w : Nat) : fSign (i2f (maxMag w)) = false := by
  rw [fSign_i2f]
  exact decide_eq_false (by omega)

/-! ## Decode of an integer (40_codec R100) -/

/-- The value of the code whose integer is n. -/
def decodeInt (n : Int) (w : Nat) : F64 := fdiv (i2f n) (i2f (maxMag w))

theorem decodeSample_eq (bytes : List Byte) (w : Nat) :
    decodeSample bytes w = decodeInt (sext (8 * w) (fromLE bytes)) w := rfl

/-- One rounding of the exact quotient. -/
theorem decodeInt_eq {n : Int} (hn : n.natAbs ≤ 2 ^ 53) (h1 : 1 ≤ w) (h4 : w ≤ 4) :
    decodeInt n w = fRound (n < 0) (n.natAbs * fOneUnits) (maxMag w) := by
  have hpos := Nat.mul_pos (maxMag_pos h1) fOneUnits_pos
  rw [decodeInt, fdiv_finite (finite_i2f hn) (finite_maxMag h4) (by rw [fUnits_maxMag h4]; omega),
    fUnits_maxMag h4, fUnits_i2f hn, fSign_maxMag, fSign_i2f, Bool.bne_false,
    fRound_mul_right _ _ _ fOneUnits_pos]

theorem fSign_decodeInt {n : Int} (hn : n.natAbs ≤ 2 ^ 53) (h1 : 1 ≤ w) (h4 : w ≤ 4) :
    fSign (decodeInt n w) = decide (n < 0) := by
  rw [decodeInt_eq hn h1 h4, fSign_fRound]

theorem finite_decodeInt {n : Int} (hn : n.natAbs ≤ 2 ^ 53) (h1 : 1 ≤ w) (h4 : w ≤ 4) :
    FiniteF64 (decodeInt n w) := by
  rw [decodeInt_eq hn h1 h4]
  exact (fRound_finite _ (maxMag_pos h1)
    (units_lt_overflow (Nat.mul_le_mul_right _ hn) _ (maxMag_pos h1))).1

theorem decodeInt_zero (h1 : 1 ≤ w) (h4 : w ≤ 4) : decodeInt 0 w = 0 := by
  rw [decodeInt_eq (by decide) h1 h4, Int.natAbs_zero, Nat.zero_mul, fRound_zero]
  decide

/-- Division is odd, so opposite codes have opposite values (40_codec R102). -/
theorem decodeInt_neg {n : Int} (h0 : n ≠ 0) (hn : n.natAbs ≤ 2 ^ 53) (h1 : 1 ≤ w) (h4 : w ≤ 4) :
    decodeInt (-n) w = fneg (decodeInt n w) := by
  rw [decodeInt_eq hn h1 h4, decodeInt_eq (by rwa [Int.natAbs_neg]) h1 h4, fneg_fRound, Int.natAbs_neg,
    ← decide_not]
  congr 2
  rw [eq_iff_iff]
  omega

section
variable {n : Int} (hn : n.natAbs ≤ 2 ^ 53) (h1 : 1 ≤ w) (h4 : w ≤ 4) (y : F64)
include hn h1 h4

/-- A quotient that is not above a value is decoded to one that is not above it. -/
theorem fUnits_decodeInt_le (h : n.natAbs * fOneUnits ≤ fUnits y * maxMag w) :
    fUnits (decodeInt n w) ≤ fUnits y := by
  have hlt := units_lt_overflow (Nat.mul_le_mul_right fOneUnits hn) _ (maxMag_pos h1)
  rw [decodeInt_eq hn h1 h4]
  exact fUnits_fRound_le _ (maxMag_pos h1) hlt y h

/-- A quotient that is not below a value is decoded to one that is not below it. -/
theorem le_fUnits_decodeInt (h : fUnits y * maxMag w ≤ n.natAbs * fOneUnits) :
    fUnits y ≤ fUnits (decodeInt n w) := by
  have hlt := units_lt_overflow (Nat.mul_le_mul_right fOneUnits hn) _ (maxMag_pos h1)
  rw [decodeInt_eq hn h1 h4]
  exact le_fUnits_fRound _ (maxMag_pos h1) hlt y h

end

/-- Codes up to MAXMAG in magnitude stay within 1.0 (40_codec R102). -/
theorem fUnits_decodeInt_le_one {n : Int} (hn : n.natAbs ≤ maxMag w) (h1 : 1 ≤ w) (h4 : w ≤ 4) :
    fUnits (decodeInt n w) ≤ fOneUnits := by
  have hmax := maxMag_lt h4
  rw [← fUnits_fOne]
  refine fUnits_decodeInt_le (by omega) h1 h4 fOne ?_
  rw [fUnits_fOne, Nat.mul_comm]
  exact Nat.mul_le_mul_left _ hn

/-- MAXMAG decodes to 1.0 (40_codec R102). -/
theorem decodeInt_maxMag (h1 : 1 ≤ w) (h4 : w ≤ 4) : decodeInt (maxMag w) w = fOne := by
  have hmax := maxMag_lt h4
  have hn : (maxMag w : Int).natAbs ≤ 2 ^ 53 := by omega
  refine eq_of_fUnits_eq ?_ (le_antisymm ?_ ?_)
  · rw [fSign_decodeInt hn h1 h4, decide_eq_false (by omega)]
    decide
  · rw [fUnits_fOne]
    exact fUnits_decodeInt_le_one (by omega) h1 h4
  · refine le_fUnits_decodeInt hn h1 h4 fOne ?_
    rw [fUnits_fOne, Nat.mul_comm, Int.natAbs_natCast]

/-- The least value above 1.0. -/
theorem fUnits_succ_one : fUnits 0x3FF0000000000001 = (2 ^ 52 + 1) * 2 ^ 1022 := by decide +kernel

/-- The most negative code lies below -1.0 (40_codec R102). -/
theorem one_lt_fUnits_decodeInt {n : Int} (hn : n.natAbs = maxMag w + 1) (h1 : 1 ≤ w) (h4 : w ≤ 4) :
    fOneUnits < fUnits (decodeInt n w) := by
  have hmax := maxMag_lt h4
  have hone : fOneUnits = 2 ^ 52 * 2 ^ 1022 := by rw [fOneUnits, ← pow_add]
  have hle := le_fUnits_decodeInt (n := n) (by omega) h1 h4 0x3FF0000000000001 (by
    rw [fUnits_succ_one, hn, hone, Nat.mul_right_comm, ← Nat.mul_assoc]
    exact Nat.mul_le_mul_right _ (by omega))
  refine lt_of_lt_of_le ?_ hle
  rw [fUnits_succ_one, hone]
  exact Nat.mul_lt_mul_of_pos_right (by omega) (by positivity)

/-- A code as an integer is no more than MAXMAG, and below -MAXMAG only at the most negative code. -/
theorem sext_code {n : Nat} (h1 : 1 ≤ w) (hn : n < 2 ^ (8 * w)) :
    sext (8 * w) n = if n ≤ maxMag w then (n : Int) else n - 2 * (maxMag w + 1) := by
  have hhalf := maxMag_succ w
  rw [sext_eq (by omega) hn]
  refine if_congr (by omega) rfl ?_
  exact_mod_cast congrArg ((n : Int) - Nat.cast ·) (two_pow_width h1)

theorem decodeSample_toLE {n : Nat} (h1 : 1 ≤ w) (hn : n < 2 ^ (8 * w)) :
    decodeSample (toLE w n) w =
      decodeInt (if n ≤ maxMag w then (n : Int) else n - 2 * (maxMag w + 1)) w := by
  rw [decodeSample_eq, fromLE_toLE, Nat.mod_eq_of_lt hn, sext_code h1 hn]

end

/-- The range of the values of codes (40_codec R102). -/
theorem decodeInt_range {w : Nat} {n : Int} (h1 : 1 ≤ w) (h4 : w ≤ 4) (hlo : -(maxMag w + 1 : Int) ≤ n)
    (hhi : n ≤ maxMag w) :
    FiniteF64 (decodeInt n w) ∧ fInt (decodeInt n w) ≤ fOneUnits ∧
      (fInt (decodeInt n w) < -fOneUnits ↔ n = -(maxMag w + 1 : Int)) := by
  have hmax := maxMag_lt h4
  have hn : n.natAbs ≤ 2 ^ 53 := by omega
  refine ⟨finite_decodeInt hn h1 h4, ?_⟩
  rw [fInt, fSign_decodeInt hn h1 h4]
  rcases eq_or_ne n (-(maxMag w + 1 : Int)) with heq | hne
  · have hone := one_lt_fUnits_decodeInt (n := n) (by omega) h1 h4
    rw [signedInt, if_pos (decide_eq_true (by omega))]
    omega
  · have hone := fUnits_decodeInt_le_one (n := n) (by omega) h1 h4
    unfold signedInt
    split_ifs <;> omega

end Sys2Proof.Machine
end

section
/-! Encode by the magnitude of the value: the clamp, the scaled product and its truncation (40_codec R103,
R104). -/

namespace Sys2Proof.Machine

/-! ## The clamp -/

theorem finite_fOne : FiniteF64 fOne := by decide

theorem finite_fMinusOne : FiniteF64 fMinusOne := by decide

@[simp] theorem fInt_fOne : fInt fOne = fOneUnits := by decide +kernel

@[simp] theorem fInt_fMinusOne : fInt fMinusOne = -fOneUnits := by decide +kernel

/-- A finite value is beyond 1.0 or -1.0 by its exact value. -/
theorem fLt_fOne_finite {v : F64} (hv : FiniteF64 v) : fLt fOne v = decide (fOneUnits < fInt v) := by
  rw [fLt_finite finite_fOne hv, fInt_fOne]

theorem fLt_fMinusOne_finite {v : F64} (hv : FiniteF64 v) :
    fLt v fMinusOne = decide (fInt v < -fOneUnits) := by
  rw [fLt_finite hv finite_fMinusOne, fInt_fMinusOne]

/-- An infinity is beyond 1.0 or -1.0 by its sign. -/
theorem fLt_one_inf {v : F64} (hv : fVal v = .inf (fSign v)) :
    fLt fOne v = !fSign v ∧ fLt v fMinusOne = fSign v :=
  ⟨(fLt_of_finite_inf finite_fOne hv).1, (fLt_of_finite_inf finite_fMinusOne hv).2⟩

theorem clampUnit_above {v : F64} (h : fLt fOne v = true) : clampUnit v = fOne := if_pos h

theorem clampUnit_below {v : F64} (h : fLt v fMinusOne = true) : clampUnit v = fMinusOne := by
  have habove : ¬ fLt fOne v = true := by
    rcases fVal_kinds v with hv | hv | hv
    · simp [fLt_of_nan (.inr ((fIsNaN_eq_true v).2 hv))]
    · obtain ⟨ha, hb⟩ := fLt_one_inf hv
      simp [ha, ← hb, h]
    · rw [fLt_fMinusOne_finite hv, decide_eq_true_eq] at h
      rw [fLt_fOne_finite hv, decide_eq_true_eq]
      omega
  rw [clampUnit, fGt, if_neg habove, if_pos h]

theorem clampUnit_inside {v : F64} (ha : fLt fOne v = false) (hb : fLt v fMinusOne = false) :
    clampUnit v = v := by
  rw [clampUnit, fGt, ha, hb]
  rfl

/-- The values in [-1.0, 1.0] by their magnitude. -/
theorem fUnits_le_one_of_inside {v : F64} (hv : fIsNaN v = false) (ha : fLt fOne v = false)
    (hb : fLt v fMinusOne = false) : FiniteF64 v ∧ fUnits v ≤ fOneUnits := by
  rcases fVal_kinds v with hk | hk | hk
  · simp [fIsNaN, hk] at hv
  · obtain ⟨ha', hb'⟩ := fLt_one_inf hk
    simp [← hb', hb, ha] at ha'
  · refine ⟨hk, ?_⟩
    rw [fLt_fOne_finite hk, decide_eq_false_iff_not] at ha
    rw [fLt_fMinusOne_finite hk, decide_eq_false_iff_not] at hb
    rw [← natAbs_fInt]
    omega

theorem clampUnit_of_fUnits_le {v : F64} (hv : FiniteF64 v) (h : fUnits v ≤ fOneUnits) :
    clampUnit v = v := by
  rw [← natAbs_fInt] at h
  refine clampUnit_inside ?_ ?_
  · rw [fLt_fOne_finite hv, decide_eq_false_iff_not]
    omega
  · rw [fLt_fMinusOne_finite hv, decide_eq_false_iff_not]
    omega

/-- The clamped value is in [-1.0, 1.0] (40_codec R103). -/
theorem clampUnit_spec {v : F64} (hv : fIsNaN v = false) :
    FiniteF64 (clampUnit v) ∧ fUnits (clampUnit v) ≤ fOneUnits := by
  cases ha : fLt fOne v with
  | true => exact clampUnit_above ha ▸ ⟨finite_fOne, fUnits_fOne.le⟩
  | false =>
    cases hb : fLt v fMinusOne with
    | true => exact clampUnit_below hb ▸ ⟨finite_fMinusOne, by decide +kernel⟩
    | false => rw [clampUnit_inside ha hb]; exact fUnits_le_one_of_inside hv ha hb

theorem fIsNaN_of_finite {v : F64} (hv : FiniteF64 v) : fIsNaN v = false := by
  rw [Bool.eq_false_iff, Ne, fIsNaN_iff]
  exact fun h => hv h.1

/-! ## The scaled value -/

section
variable {w : Nat} {c : F64} (h4 : w ≤ 4) (hc : FiniteF64 c) (hone : fUnits c ≤ fOneUnits)

/-- One rounding of the exact product with MAXMAG (40_codec R103). -/
theorem fmul_maxMag (h4 : w ≤ 4) (hc : FiniteF64 c) :
    fmul c (i2f (maxMag w)) = fRound (fSign c) (fUnits c * maxMag w) 1 := by
  rw [fmul_finite hc (finite_maxMag h4), fSign_maxMag, Bool.bne_false, fUnits_maxMag h4, ← Nat.mul_assoc,
    ← fRound_mul_right (fSign c) (fUnits c * maxMag w) 1 fOneUnits_pos, Nat.one_mul]

theorem fSign_scaled (h4 : w ≤ 4) (hc : FiniteF64 c) : fSign (fmul c (i2f (maxMag w))) = fSign c := by
  rw [fmul_maxMag h4 hc, fSign_fRound]

theorem scaled_lt_overflow (h4 : w ≤ 4) (hone : fUnits c ≤ fOneUnits) :
    fUnits c * maxMag w < (2 ^ 54 - 1) * 2 ^ 2044 * 1 := by
  have hmax := maxMag_lt h4
  refine units_lt_overflow ?_ 1 Nat.one_pos
  rw [Nat.mul_comm]
  exact Nat.mul_le_mul (by omega) hone

include h4 hc hone

theorem finite_scaled : FiniteF64 (fmul c (i2f (maxMag w))) := by
  rw [fmul_maxMag h4 hc]
  exact (fRound_finite _ Nat.one_pos (scaled_lt_overflow h4 hone)).1

/-- A product that is not above a value is scaled to one that is not above it. -/
theorem fUnits_scaled_le {y : F64} (h : fUnits c * maxMag w ≤ fUnits y) :
    fUnits (fmul c (i2f (maxMag w))) ≤ fUnits y := by
  rw [fmul_maxMag h4 hc]
  exact fUnits_fRound_le _ Nat.one_pos (scaled_lt_overflow h4 hone) y (by rwa [Nat.mul_one])

/-- A product that is not below a value is scaled to one that is not below it. -/
theorem le_fUnits_scaled {y : F64} (h : fUnits y ≤ fUnits c * maxMag w) :
    fUnits y ≤ fUnits (fmul c (i2f (maxMag w))) := by
  rw [fmul_maxMag h4 hc]
  exact le_fUnits_fRound _ Nat.one_pos (scaled_lt_overflow h4 hone) y (by rwa [Nat.mul_one])

/-- No value is nearer to the product than the scaled one. -/
theorem fUnits_scaled_nearest (y : F64) :
    ((fUnits c * maxMag w : Nat) - fUnits (fmul c (i2f (maxMag w))) : Int).natAbs ≤
      ((fUnits c * maxMag w : Nat) - fUnits y : Int).natAbs := by
  have := fUnits_fRound_nearest (fSign c) Nat.one_pos (scaled_lt_overflow h4 hone) y
  rwa [← fmul_maxMag h4 hc, Nat.cast_one, mul_one, mul_one] at this

/-- The scaled value is at most MAXMAG (40_codec R104). -/
theorem fUnits_scaled_le_maxMag : fUnits (fmul c (i2f (maxMag w))) ≤ maxMag w * fOneUnits := by
  rw [← fUnits_maxMag h4]
  refine fUnits_scaled_le h4 hc hone ?_
  rw [fUnits_maxMag h4, Nat.mul_comm]
  exact Nat.mul_le_mul_left _ hone

end

theorem fUnits_scaled_one {w : Nat} {c : F64} (h4 : w ≤ 4) (hc : FiniteF64 c) (hone : fUnits c = fOneUnits) :
    fUnits (fmul c (i2f (maxMag w))) = maxMag w * fOneUnits := by
  refine le_antisymm (fUnits_scaled_le_maxMag h4 hc hone.le) ?_
  rw [← fUnits_maxMag h4]
  refine le_fUnits_scaled h4 hc hone.le ?_
  rw [fUnits_maxMag h4, hone, Nat.mul_comm]

/-- A power of two times a value is a value. -/
theorem exists_fUnits_mul_pow {x : F64} {k : Nat} (h : fUnits x * 2 ^ k < 2 ^ 2044) :
    ∃ y, fUnits y = fUnits x * 2 ^ k := by
  obtain ⟨m, e, hm, hx⟩ := exists_fUnits_eq x
  rw [hx, Nat.mul_assoc, ← pow_add] at h ⊢
  rcases Nat.eq_zero_or_pos m with rfl | hpos
  · exact ⟨fZero false, by rw [Nat.zero_mul]; decide⟩
  · have hlt : 2 ^ (e + k) < 2 ^ 2044 := (Nat.le_mul_of_pos_left _ hpos).trans_lt h
    have he := (Nat.pow_lt_pow_iff_right (by decide)).1 hlt
    exact ⟨_, fUnits_fRound_mul_pow false hm.le he.le⟩

/-- Below 1 / (MAXMAG + 1) the scaled value does not reach 1.0: the power of two times the value is itself
a value. -/
theorem fUnits_scaled_lt_one {w : Nat} {c : F64} (h4 : w ≤ 4) (hc : FiniteF64 c)
    (h : fUnits c * 2 ^ (8 * w - 1) < fOneUnits) : fUnits (fmul c (i2f (maxMag w))) < fOneUnits := by
  obtain ⟨y, hy⟩ := exists_fUnits_mul_pow (h.trans (by decide +kernel))
  have hle := Nat.le_mul_of_pos_right (fUnits c) (Nat.two_pow_pos (8 * w - 1))
  refine (fUnits_scaled_le h4 hc (hle.trans h.le) ?_).trans_lt (hy ▸ h)
  rw [hy, ← maxMag_succ]
  exact Nat.mul_le_mul_left _ (by omega)

/-! ## Encode's integer (40_codec R103, R104) -/

theorem encodeInt_of_nan {v : F64} (hv : fIsNaN v = true) (w : Nat) : encodeInt v w = 0 := if_pos hv

section
variable {w : Nat} {v : F64}

theorem encodeInt_eq (h4 : w ≤ 4) (hv : fIsNaN v = false) :
    encodeInt v w =
      signedInt (fSign (clampUnit v)) (fUnits (fmul (clampUnit v) (i2f (maxMag w))) / fOneUnits) := by
  obtain ⟨hc, hone⟩ := clampUnit_spec hv
  rw [encodeInt, hv, if_neg Bool.false_ne_true, ftrunc_finite (finite_scaled h4 hc hone),
    fSign_scaled h4 hc]

theorem encodeInt_inside (h4 : w ≤ 4) (hv : FiniteF64 v) (hone : fUnits v ≤ fOneUnits) :
    encodeInt v w = signedInt (fSign v) (fUnits (fmul v (i2f (maxMag w))) / fOneUnits) := by
  rw [encodeInt_eq h4 (fIsNaN_of_finite hv), clampUnit_of_fUnits_le hv hone]

theorem natAbs_encodeInt_le (h4 : w ≤ 4) (v : F64) : (encodeInt v w).natAbs ≤ maxMag w := by
  cases hv : fIsNaN v with
  | true => rw [encodeInt_of_nan hv]; exact Nat.zero_le _
  | false =>
    obtain ⟨hc, hone⟩ := clampUnit_spec hv
    rw [encodeInt_eq h4 hv, natAbs_signedInt]
    exact Nat.div_le_of_le_mul (Nat.mul_comm _ _ ▸ fUnits_scaled_le_maxMag h4 hc hone)

theorem not_nan_of_fLt {a b : F64} (h : fLt a b = true) : fIsNaN a = false ∧ fIsNaN b = false := by
  constructor <;> by_contra hn <;> rw [Bool.not_eq_false] at hn
  · rw [fLt_of_nan (.inl hn)] at h; cases h
  · rw [fLt_of_nan (.inr hn)] at h; cases h

theorem encodeInt_above (h4 : w ≤ 4) (h : fLt fOne v = true) : encodeInt v w = maxMag w := by
  rw [encodeInt_eq h4 (not_nan_of_fLt h).2, clampUnit_above h,
    fUnits_scaled_one h4 finite_fOne fUnits_fOne, Nat.mul_div_cancel _ fOneUnits_pos]
  rfl

theorem encodeInt_below (h4 : w ≤ 4) (h : fLt v fMinusOne = true) : encodeInt v w = -maxMag w := by
  rw [encodeInt_eq h4 (not_nan_of_fLt h).1, clampUnit_below h,
    fUnits_scaled_one h4 finite_fMinusOne (by decide +kernel), Nat.mul_div_cancel _ fOneUnits_pos]
  rfl

/-- In [-1.0, 1.0], the scaled value truncated toward zero (40_codec R103). -/
theorem encodeInt_truncates (h4 : w ≤ 4) (hv : FiniteF64 v) (hone : fUnits v ≤ fOneUnits) :
    (encodeInt v w).natAbs * fOneUnits ≤ fUnits (fmul v (i2f (maxMag w))) ∧
      fUnits (fmul v (i2f (maxMag w))) < ((encodeInt v w).natAbs + 1) * fOneUnits ∧
      (fSign v = false → 0 ≤ encodeInt v w) ∧ (fSign v = true → encodeInt v w ≤ 0) := by
  rw [encodeInt_inside h4 hv hone, natAbs_signedInt]
  refine ⟨Nat.div_mul_le_self _ _, lt_div_succ_mul _, fun hs => ?_, fun hs => ?_⟩
  · rw [hs]
    exact Int.natCast_nonneg _
  · rw [hs]
    exact Int.neg_nonpos_of_nonneg (Int.natCast_nonneg _)

/-- Below 1/MAXMAG the integer is 0 unless the product rounds to 1.0 (40_codec R103, entry 26). -/
theorem encodeInt_small (h1 : 1 ≤ w) (h4 : w ≤ 4) (hv : FiniteF64 v) (h : fUnits v * maxMag w < fOneUnits) :
    encodeInt v w =
      if fabs (fmul v (i2f (maxMag w))) = fOne then (if fSign v then -1 else 1) else 0 := by
  have hone : fUnits v ≤ fOneUnits := (Nat.le_mul_of_pos_right _ (maxMag_pos h1)).trans h.le
  have hle : fUnits (fmul v (i2f (maxMag w))) ≤ fOneUnits := by
    rw [← fUnits_fOne] at h ⊢
    exact fUnits_scaled_le h4 hv hone h.le
  rw [encodeInt_inside h4 hv hone]
  have hiff := fabs_eq_fOne_iff (fIsNaN_of_finite (finite_scaled h4 hv hone))
  split_ifs with heq hs <;> rw [hiff] at heq
  · rw [heq, Nat.div_self fOneUnits_pos, hs]; rfl
  · rw [heq, Nat.div_self fOneUnits_pos, Bool.eq_false_iff.mpr hs]; rfl
  · rw [Nat.div_eq_of_lt (by omega)]
    cases fSign v <;> rfl

/-- Below 1 / (MAXMAG + 1) the integer is 0. -/
theorem encodeInt_tiny (h4 : w ≤ 4) (hv : FiniteF64 v) (h : fUnits v * 2 ^ (8 * w - 1) < fOneUnits) :
    encodeInt v w = 0 := by
  have hle := Nat.le_mul_of_pos_right (fUnits v) (Nat.two_pow_pos (8 * w - 1))
  rw [encodeInt_inside h4 hv (hle.trans h.le), Nat.div_eq_of_lt (fUnits_scaled_lt_one h4 hv h)]
  cases fSign v <;> rfl

theorem encodeInt_of_zero (h4 : w ≤ 4) (hv : FiniteF64 v) (h : fUnits v = 0) : encodeInt v w = 0 :=
  encodeInt_tiny h4 hv (by rw [h, Nat.zero_mul]; exact fOneUnits_pos)

end

@[simp] theorem length_encodeSample (v : F64) (w : Nat) : (encodeSample v w).length = w := length_toLE ..

/-- Encode's bytes read as its integer in two's complement (40_codec R103). -/
theorem fromLE_encodeSample (v : F64) (w : Nat) :
    (fromLE (encodeSample v w) : Int) = encodeInt v w % 2 ^ (8 * w) := by
  have hnonneg : 0 ≤ encodeInt v w % 2 ^ (8 * w) := Int.emod_nonneg _ (by positivity)
  have hlt : encodeInt v w % 2 ^ (8 * w) < 2 ^ (8 * w) := Int.emod_lt_of_pos _ (by positivity)
  rw [encodeSample, fromLE_toLE, Int.natCast_emod, Int.toNat_of_nonneg hnonneg, Nat.cast_pow,
    Nat.cast_ofNat, Int.emod_eq_of_lt hnonneg hlt]

/-- The bytes of an integer are those of its code. -/
theorem encodeSample_eq {v : F64} {w u : Nat} (hu : u < 2 ^ (8 * w))
    (h : encodeInt v w = u ∨ encodeInt v w = u - 2 ^ (8 * w)) : encodeSample v w = toLE w u := by
  have hmod : encodeInt v w % 2 ^ (8 * w) = u := by
    rcases h with h | h
    · rw [h, Int.emod_eq_of_lt (by omega) (by exact_mod_cast hu)]
    · rw [h, Int.sub_emod_right, Int.emod_eq_of_lt (by omega) (by exact_mod_cast hu)]
  rw [encodeSample, hmod, Int.toNat_natCast]

/-! ## ENC (40_codec R112) -/

/-- A result of w bytes is their integer, its byte k their byte k (30_encoding R84). -/
theorem sampleWord_bytes {bytes : List Byte} (h : bytes.length ≤ 4) :
    (sampleWord bytes).toNat < 2 ^ (8 * bytes.length) ∧
      ∀ k < bytes.length, bytes[k]? = some ((sampleWord bytes).extractLsb' (8 * k) 8) := by
  have hlt := fromLE_lt bytes
  have hword : (sampleWord bytes).toNat = fromLE bytes := by
    rw [sampleWord, BitVec.toNat_ofNat, Nat.mod_eq_of_lt]
    exact hlt.trans_le (Nat.pow_le_pow_right Nat.two_pos (by omega))
  refine ⟨hword ▸ hlt, fun k hk => ?_⟩
  rw [← getElem?_toLE_toNat hk, hword, toLE_fromLE]

/-- An integer 0 encodes to the zero code. -/
theorem encodeSample_of_zero {v : F64} {w : Nat} (h : encodeInt v w = 0) :
    encodeSample v w = List.replicate w 0 := by
  rw [encodeSample_eq (u := 0) (by positivity) (.inl h), toLE_zero]

/-- The value just below 1.0 scales to just below MAXMAG (40_codec R112). -/
theorem encodeInt_pred_one {w : Nat} (h1 : 1 ≤ w) (h4 : w ≤ 4) :
    encodeInt 0x3FEFFFFFFFFFFFFF w = (2 ^ (8 * w - 1) - 2 : Nat) := by
  interval_cases w <;> decide +kernel

end Sys2Proof.Machine
end

section
/-! The round trip of codes (40_codec R107): a code's value times MAXMAG is within half a spacing of the
code, so the scaled value is the code again. -/

namespace Sys2Proof.Machine

/-! ## How near a code's value is to the exact quotient -/

/-- The binade of a number that is not zero: it is at most 2^c and more than half of it. -/
theorem exists_binade {n : Nat} (hn : 0 < n) : ∃ c, n ≤ 2 ^ c ∧ 2 ^ c < 2 * n := by
  have hle := Nat.log2_self_le (n := 2 * n - 1) (by omega)
  have hlt := Nat.lt_log2_self (n := 2 * n - 1)
  rw [pow_succ] at hlt
  exact ⟨Nat.log2 (2 * n - 1), by omega, by omega⟩

theorem le_of_two_pow_lt {c k : Nat} (h : 2 ^ c < 2 ^ (k + 1)) : c ≤ k :=
  Nat.lt_succ_iff.mp ((Nat.pow_lt_pow_iff_right Nat.one_lt_two).1 h)

/-- Up to 2^53 spacings are a value, so what holds of their number holds of a value. -/
theorem exists_value_near {Y N m k T S : Nat} (hY : Y ≤ 2 ^ 53) (hk : k ≤ 2044) (hT : N * 2 ^ k = T)
    (hS : 2 * ((N : Int) - Y * m).natAbs * 2 ^ k < S) : ∃ y, 2 * ((T : Int) - fUnits y * m).natAbs < S := by
  refine ⟨fRound false (Y * 2 ^ k) 1, ?_⟩
  have hfactor : ((N * 2 ^ k : Nat) - (Y * 2 ^ k : Nat) * m : Int) = (N - Y * m) * (2 ^ k : Nat) := by
    push_cast
    ring
  rwa [fUnits_fRound_mul_pow false hY hk, ← hT, hfactor, Int.natAbs_mul, Int.natAbs_natCast, ← Nat.mul_assoc]

section
variable {m K c n : Nat} (hm : m + 1 = 2 ^ K) (hpos : 0 < m) (hK : K ≤ 31) (hc : c ≤ K)
include hm hpos hK hc

/-- A power of two has a value near its quotient by m = 2^K - 1 if what is left of the quotient past 53
digits is small. -/
theorem exists_value_near_pow (hrest : 4 * (2 ^ (52 + K) % m) < 2 ^ K) :
    ∃ y, 2 * ((2 ^ c * fOneUnits : Nat) - fUnits y * m : Int).natAbs < 2 ^ (1021 + c) := by
  have hY : 2 ^ (52 + K) / m ≤ 2 ^ 53 := by
    refine Nat.div_le_of_le_mul ?_
    rw [pow_add, ← hm]
    omega
  have herr : ((2 ^ (52 + K) : Nat) - (2 ^ (52 + K) / m : Nat) * m : Int).natAbs = 2 ^ (52 + K) % m := by
    have hdiv := Nat.div_add_mod' (2 ^ (52 + K)) m
    rw [← Nat.cast_mul]
    omega
  refine exists_value_near (N := 2 ^ (52 + K)) (k := 1022 + c - K) hY (by omega) ?_ ?_
  · rw [fOneUnits, ← pow_add, ← pow_add]
    congr 1
    omega
  · have htop : 2 ^ K * 2 ^ (1022 + c - K) = 2 * 2 ^ (1021 + c) := by
      rw [← pow_add, ← pow_succ']
      congr 1
      omega
    have hlt := Nat.mul_lt_mul_of_pos_right hrest (Nat.two_pow_pos (1022 + c - K))
    rw [htop, Nat.mul_assoc] at hlt
    rw [herr, Nat.mul_assoc]
    omega

/-- Any other number up to m = 2^K - 1 has a value near its quotient by m: the quotient is at most 2^53
spacings of 2^-K times the number's own. -/
theorem exists_value_near_between (hn : n < 2 ^ c) :
    ∃ y, 2 * ((n * fOneUnits : Nat) - fUnits y * m : Int).natAbs < 2 ^ (1021 + c) := by
  obtain ⟨hle, hge⟩ := roundHalfEven_near (n := n * 2 ^ (53 + K - c)) hpos
  have hN : n * 2 ^ (53 + K - c) ≤ 2 ^ 53 * m := by
    have hsucc := Nat.mul_le_mul_right (2 ^ (53 + K - c)) hn
    have hspace : 2 ^ 53 ≤ 2 ^ (53 + K - c) := Nat.pow_le_pow_right Nat.two_pos (by omega)
    rw [Nat.succ_mul, ← pow_add, show c + (53 + K - c) = 53 + K by omega, pow_add, ← hm] at hsucc
    omega
  have hY : roundHalfEven (n * 2 ^ (53 + K - c)) m ≤ 2 ^ 53 := by
    by_contra! hgt
    have := Nat.mul_le_mul_right m hgt
    rw [Nat.succ_mul] at this
    omega
  refine exists_value_near (N := n * 2 ^ (53 + K - c)) (k := 1021 + c - K) hY (by omega) ?_ ?_
  · rw [fOneUnits, Nat.mul_assoc, ← pow_add]
    congr 2
    omega
  · calc 2 * ((n * 2 ^ (53 + K - c) : Nat) - roundHalfEven (n * 2 ^ (53 + K - c)) m * m : Int).natAbs *
          2 ^ (1021 + c - K)
        < 2 ^ K * 2 ^ (1021 + c - K) := by
          refine Nat.mul_lt_mul_of_pos_right ?_ (by positivity)
          rw [← Nat.cast_mul]
          omega
      _ = 2 ^ (1021 + c) := by
          rw [← pow_add]
          congr 1
          omega

end

/-- 1 / MAXMAG has a 1 at every 8w - 1 binary places, so what is left of it past 53 digits is small. -/
theorem quotient_rest_small {w : Nat} (h1 : 1 ≤ w) (h4 : w ≤ 4) :
    4 * (2 ^ (52 + (8 * w - 1)) % maxMag w) < 2 ^ (8 * w - 1) := by
  interval_cases w <;> decide

/-- The decoded value times MAXMAG is within half of the code's spacing from the code. -/
theorem fUnits_decodeInt_near {w c : Nat} {n : Int} (h1 : 1 ≤ w) (h4 : w ≤ 4) (hm : n.natAbs ≤ maxMag w)
    (hn : n.natAbs ≤ 2 ^ c) (hc : 2 ^ c < 2 * n.natAbs) :
    2 * ((n.natAbs * fOneUnits : Nat) - fUnits (decodeInt n w) * maxMag w : Int).natAbs < 2 ^ (1021 + c) := by
  have hmax := maxMag_lt h4
  have hM := maxMag_succ w
  have hcw : c ≤ 8 * w - 1 := le_of_two_pow_lt (by omega)
  obtain ⟨y, hy⟩ : ∃ y,
      2 * ((n.natAbs * fOneUnits : Nat) - fUnits y * maxMag w : Int).natAbs < 2 ^ (1021 + c) := by
    rcases hn.eq_or_lt with heq | hlt
    · rw [heq]
      exact exists_value_near_pow hM (maxMag_pos h1) (by omega) hcw (quotient_rest_small h1 h4)
    · exact exists_value_near_between hM (maxMag_pos h1) (by omega) hcw hlt
  have hnear : ((n.natAbs * fOneUnits : Nat) - fUnits (decodeInt n w) * maxMag w : Int).natAbs ≤
      ((n.natAbs * fOneUnits : Nat) - fUnits y * maxMag w : Int).natAbs := by
    rw [decodeInt_eq (by omega) h1 h4]
    exact fUnits_fRound_nearest _ (maxMag_pos h1)
      (units_lt_overflow (Nat.mul_le_mul_right _ (by omega)) _ (maxMag_pos h1)) y
  exact (Nat.mul_le_mul_left 2 hnear).trans_lt hy

/-! ## Encode of a code's value -/

/-- An integer between 2^(c-1) and 2^c is more than 2^52 of the spacings below 2^c. -/
theorem units_in_spacings {c n : Nat} (hc : 2 ^ c < 2 * n) (hc53 : c ≤ 53) :
    ∃ j, n * fOneUnits = j * 2 ^ (1021 + c) ∧ 2 ^ 52 < j := by
  refine ⟨n * 2 ^ (53 - c), ?_, ?_⟩
  · rw [fOneUnits, Nat.mul_assoc, ← pow_add]
    congr 2
    omega
  · have := Nat.mul_lt_mul_of_pos_right hc (Nat.two_pow_pos (53 - c))
    rw [← pow_add, Nat.add_sub_cancel' hc53, Nat.mul_assoc] at this
    omega

/-- A number as near to x as n units are, where x is within half a spacing of n units, is n units and less
than one more, unless it lies in the spacing below. -/
theorem div_eq_of_near {n one x P S : Nat} (hx : 2 * ((n * one : Nat) - x : Int).natAbs < S)
    (hP : ((x : Int) - P).natAbs ≤ ((x : Int) - (n * one : Nat)).natAbs) (hS : S ≤ one)
    (hgrid : P < n * one → P + S ≤ n * one) : P / one = n := by
  refine Nat.div_eq_of_lt_le ?_ ?_
  · omega
  · rw [Nat.succ_mul]
    omega

/-- Scaling the value of a code that is not 0 gives at least the code and less than the next one. -/
theorem scaled_decodeInt {w : Nat} {n : Int} (h1 : 1 ≤ w) (h4 : w ≤ 4) (h0 : n ≠ 0)
    (hm : n.natAbs ≤ maxMag w) :
    fUnits (fmul (decodeInt n w) (i2f (maxMag w))) / fOneUnits = n.natAbs := by
  have hmax := maxMag_lt h4
  have hn53 : n.natAbs ≤ 2 ^ 53 := by omega
  obtain ⟨c, hn, hc⟩ := exists_binade (Int.natAbs_pos.mpr h0)
  have hc53 : c ≤ 53 := le_of_two_pow_lt (by omega)
  have hspace : 2 ^ (1021 + c) ≤ fOneUnits := by
    have hexp : 1021 + c ≤ 1074 := by omega
    unfold fOneUnits
    gcongr
    decide
  obtain ⟨j, hj, hj52⟩ := units_in_spacings hc hc53
  have hdec := fUnits_decodeInt_near h1 h4 hm hn hc
  have hnear := fUnits_scaled_nearest h4 (finite_decodeInt hn53 h1 h4) (fUnits_decodeInt_le_one hm h1 h4)
    (i2f n)
  have hgrid := fUnits_add_le (x := fmul (decodeInt n w) (i2f (maxMag w))) (e := 1021 + c) hj52
  rw [← hj] at hgrid
  rw [fUnits_i2f hn53] at hnear
  rw [← Nat.cast_mul] at hdec
  exact div_eq_of_near hdec hnear hspace hgrid

/-- Encode gives back the integer of every code but the most negative (40_codec R107). -/
theorem encodeInt_decodeInt {w : Nat} {n : Int} (h1 : 1 ≤ w) (h4 : w ≤ 4) (hn : n.natAbs ≤ maxMag w) :
    encodeInt (decodeInt n w) w = n := by
  have hmax := maxMag_lt h4
  have hn53 : n.natAbs ≤ 2 ^ 53 := by omega
  rcases eq_or_ne n 0 with rfl | h0
  · rw [decodeInt_zero h1 h4]
    exact encodeInt_of_zero h4 (by decide) (by decide)
  · rw [encodeInt_inside h4 (finite_decodeInt hn53 h1 h4) (fUnits_decodeInt_le_one hn h1 h4),
      fSign_decodeInt hn53 h1 h4, scaled_decodeInt h1 h4 h0 hn, signedInt_natAbs]

/-- The most negative code is clamped to the next one (40_codec R107). -/
theorem encodeInt_decodeInt_min {w : Nat} (h1 : 1 ≤ w) (h4 : w ≤ 4) :
    encodeInt (decodeInt (-(maxMag w + 1)) w) w = -maxMag w := by
  obtain ⟨hfin, -, hbelow⟩ := decodeInt_range (n := -(maxMag w + 1 : Int)) h1 h4 le_rfl (by omega)
  refine encodeInt_below h4 ?_
  rw [fLt_fMinusOne_finite hfin, decide_eq_true_eq, hbelow]

end Sys2Proof.Machine
end

section
/-! The statements about the sample codec and its commands, settled. -/

namespace Sys2Proof.Machine

/-- Settles O7: DEC is a command that takes a width, and its value is Decode of OPA's low bytes. -/
theorem decDecodesOneSample : Obligations.DecDecodesOneSample := by
  intro s w
  exact ⟨fun hp => (exec_dec hp w).1, fun hp => (exec_dec hp w).2, fun hp => exec_busy hp _,
    fun v hp hop => State.writeCmd_width hp (opcodeRow_dec hop),
    ⟨length_toLE .., fun k hk => getElem?_toLE_toNat hk s.opa⟩, by decide +kernel, by decide +kernel⟩

/-- Settles O8: ENC is a command that takes a width, and its value is the word of Encode's bytes. -/
theorem encEncodesOneValue : Obligations.EncEncodesOneValue := by
  intro s w
  refine ⟨fun hp hw => ?accepted, fun hp => (exec_enc hp w).2, fun hp => exec_busy hp _,
    fun v hp hop => State.writeCmd_width hp (opcodeRow_enc hop),
    fun hv => encodeSample_of_zero (encodeInt_of_nan hv w), fun hw => ?corners, by decide +kernel⟩
  case accepted =>
    obtain ⟨-, h4⟩ := width_bounds hw
    have hbytes := sampleWord_bytes (bytes := encodeSample s.opa w) (by simpa using h4)
    rw [length_encodeSample] at hbytes
    exact ⟨_, (exec_enc hp w).1 hw, hbytes.1, length_encodeSample .., hbytes.2⟩
  case corners =>
    obtain ⟨h1, h4⟩ := width_bounds hw
    have hhalf := maxMag_succ w
    have hwidth := two_pow_width h1
    exact ⟨encodeSample_of_zero (encodeInt_of_zero h4 (by decide) (by decide)),
      encodeSample_eq (by omega) (.inl (encodeInt_pred_one h1 h4))⟩

/-- Settles O22: the bytes read as their integer, sign-extended by its cases. -/
theorem decodeDividesTheSignedInteger : Obligations.DecodeDividesTheSignedInteger := by
  rintro w bytes h1 - rfl
  intro u
  have hu : u = fromLE bytes := foldr_bytes bytes
  rw [hu, ← sext_eq (by omega) (fromLE_lt bytes), ← natCast_maxMag]
  rfl

/-- Settles O23: a code's integer is its number or that less the number of codes, and the quotient by MAXMAG is
compared with 1.0 before its one rounding. -/
theorem decodeRange : Obligations.DecodeRange := by
  intro w h1 h4
  have hhalf := maxMag_succ w
  have hmax := maxMag_lt h4
  have hwidth := two_pow_width h1
  refine ⟨?zero, ?one, fun n h0 hn => ?odd, fun n hn => ?range⟩
  case zero => rw [decodeSample_toLE h1 (by omega), if_pos (by omega)]; exact decodeInt_zero h1 h4
  case one =>
    rw [← hhalf, Nat.add_sub_cancel, decodeSample_toLE h1 (by omega), if_pos le_rfl]
    exact decodeInt_maxMag h1 h4
  case odd =>
    have hneg : ((2 ^ (8 * w) - n : Nat) : Int) - 2 * (maxMag w + 1) = -(n : Int) := by omega
    rw [decodeSample_toLE h1 (by omega), decodeSample_toLE h1 (by omega), if_neg (by omega),
      if_pos (by omega), hneg]
    exact decodeInt_neg (by omega) (by omega) h1 h4
  case range =>
    rw [decodeSample_toLE h1 hn, ← natCast_fOneUnits]
    split_ifs
    · obtain ⟨hfin, hle, hlow⟩ := decodeInt_range (n := n) h1 h4 (by omega) (by omega)
      exact ⟨hfin, hle, hlow.trans (by omega)⟩
    · obtain ⟨hfin, hle, hlow⟩ := decodeInt_range (n := n - 2 * (maxMag w + 1)) h1 h4 (by omega) (by omega)
      exact ⟨hfin, hle, hlow.trans (by omega)⟩

/-- Settles O24: the clamped value scaled by one rounding, and compared with 1.0 and MAXMAG before it. -/
theorem encodeStaysInRange : Obligations.EncodeStaysInRange := by
  intro w v h1 h4
  simp only [← natCast_maxMag, natAbs_fInt]
  refine ⟨⟨length_encodeSample v w, ?bytes⟩, ?inside, natAbs_encodeInt_le h4 v, encodeInt_above h4,
    encodeInt_below h4, fun hv => encodeInt_of_nan hv w, encodeInt_small h1 h4, encodeInt_tiny h4⟩
  case bytes => rw [foldr_byteInts]; exact fromLE_encodeSample v w
  case inside =>
    intro hv ha hb
    exact encodeInt_truncates h4 hv (fUnits_le_one_of_inside (fIsNaN_of_finite hv) ha hb).2

/-- Settles O25: by the code's integer, below the most negative code, at it and above it. -/
theorem codesSurviveTheRoundTrip : Obligations.CodesSurviveTheRoundTrip := by
  intro w bytes h1 h4 hlen
  have hu : fromLE bytes < 2 ^ (8 * w) := hlen ▸ fromLE_lt bytes
  have hpos := maxMag_pos h1
  have hwidth := two_pow_width h1
  have hpow : (2 : Int) ^ (8 * w) = 2 * (maxMag w + 1) := by exact_mod_cast hwidth
  have hmin := eq_toLE_iff hlen (n := maxMag w + 1) (by omega)
  rw [decodeSample_eq, sext_code h1 hu, ← maxMag_succ]
  rcases lt_trichotomy (fromLE bytes) (maxMag w + 1) with hlt | heq | hgt
  · rw [if_pos (by omega), if_neg (mt hmin.mp hlt.ne),
      encodeSample_eq hu (.inl (encodeInt_decodeInt h1 h4 (by omega))), ← hlen, toLE_fromLE]
  · rw [if_neg (by omega), if_pos (hmin.mpr heq), heq,
      show ((maxMag w + 1 : Nat) : Int) - 2 * (maxMag w + 1) = -(maxMag w + 1) by omega]
    refine encodeSample_eq (by omega) (.inr ?_)
    rw [encodeInt_decodeInt_min h1 h4, hpow]
    omega
  · rw [if_neg (by omega), if_neg (mt hmin.mp hgt.ne'),
      encodeSample_eq hu (.inr (by rw [encodeInt_decodeInt h1 h4 (by omega), hpow])), ← hlen, toLE_fromLE]

end Sys2Proof.Machine
end

section
/-! The words of formats C0 and CI (30_encoding R81), and what EASE and LUTRD put into RES (41_easing R130,
R131). -/

namespace Sys2Proof.Machine

/-- While idle, a word of an opcode's row is the row's command if RSV is 0 and the format admits the word, else
ILLEGAL_CMD (30_encoding R83). -/
theorem State.writeCmd_row {s : State} {v : Word} {f : Format} {i : Instr} (hp : s.phase = .idle)
    (hrow : opcodeRow v = some (f, i)) :
    s.writeCmd v =
      if wordRsv v = 0 ∧ f.admits v = true then exec i s else .next (s.rejected 0x01 0) := by
  split_ifs with h
  · exact State.writeCmd_command s (decode_eq_command_iff.mpr ⟨f, hrow, h⟩)
  · refine State.writeCmd_illegal hp ?_
    rintro ⟨j, hj⟩
    obtain ⟨f', hrow', hfields⟩ := decode_eq_command_iff.mp hj
    obtain ⟨rfl, -⟩ := Prod.mk.inj (Option.some.inj (hrow.symm.trans hrow'))
    exact h hfields

/-- A command without operands has one word, its opcode (30_encoding R81). -/
theorem State.writeCmd_bare {s : State} {v : Word} {op : Nat} {i : Instr} (hp : s.phase = .idle)
    (hop : v.toNat % 2 ^ 8 = op) (hrow : opcodeRow v = some (.c0, i)) :
    s.writeCmd v = if v = BitVec.ofNat 64 op then exec i s else .next (s.rejected 0x01 0) := by
  rw [State.writeCmd_row hp hrow]
  refine if_congr ?_ rfl rfl
  have hv := v.isLt
  rw [Format.admits, Bool.and_eq_true, beq_iff_eq, beq_iff_eq, wordRsv_eq, wordW_eq, wordIdx_eq,
    ← BitVec.toNat_inj, BitVec.toNat_ofNat]
  omega

/-- A word whose opcode takes an index is the command of its IDX if RSV and W are 0 (30_encoding R81). -/
theorem State.writeCmd_index {s : State} {v : Word} {i : Nat → Instr} (hp : s.phase = .idle)
    (hrow : opcodeRow v = some (.ci, i (wordIdx v))) :
    s.writeCmd v =
      if v.toNat / 2 ^ 32 = 0 ∧ v.toNat / 2 ^ 8 % 2 ^ 8 = 0 then exec (i (v.toNat / 2 ^ 16)) s
      else .next (s.rejected 0x01 0) := by
  rw [State.writeCmd_row hp hrow]
  simp only [Format.admits, beq_iff_eq, wordRsv_eq, wordW_eq]
  refine ite_congr rfl (fun h => ?_) fun _ => rfl
  rw [wordIdx_eq, Nat.mod_eq_of_lt (by omega)]

theorem opcodeRow_ease {v : Word} (h : v.toNat % 2 ^ 8 = 0x20) : opcodeRow v = some (.c0, .ease) := by
  rw [opcodeRow, wordOp_eq, h]; rfl

theorem opcodeRow_lutrd {v : Word} (h : v.toNat % 2 ^ 8 = 0x21) :
    opcodeRow v = some (.ci, .lutrd (wordIdx v)) := by
  rw [opcodeRow, wordOp_eq, h]; rfl

theorem exec_ease {s : State} (hp : s.phase = .idle) :
    exec .ease s = .next { s.completed with res := ease s.cfg s.opa s.opb s.opc } := by
  rw [exec_eq_issue, State.issue_idle hp]
  rfl

theorem exec_lutrd {s : State} (hp : s.phase = .idle) (idx : Nat) :
    (idx < s.cfg.tableSize →
        exec (.lutrd idx) s = .next { s.completed with res := easeTable s.cfg idx }) ∧
      (s.cfg.tableSize ≤ idx → exec (.lutrd idx) s = .next (s.rejected 0x01 0)) := by
  rw [exec_eq_issue, State.issue_idle hp, commandRule, State.accept_cfg]
  exact ⟨fun h => by rw [if_pos h]; rfl, fun h => by rw [if_neg h.not_gt]; rfl⟩

end Sys2Proof.Machine
end

section
/-! Rounding keeps the order of quotients and every value itself; sums, products and comparisons with 0 and
1.0 (00_scope R10). -/

namespace Sys2Proof.Machine

/-! ## Rounding -/

/-- Rounding keeps the order: two quotients rounded the wrong way round would both lie halfway between the two
results, and so be one quotient. -/
theorem fUnits_fRound_mono (neg : Bool) {n n' d : Nat} (hd : 0 < d) (hn' : n' < (2 ^ 54 - 1) * 2 ^ 2044 * d)
    (h : n ≤ n') : fUnits (fRound neg n d) ≤ fUnits (fRound neg n' d) := by
  have hnear := fUnits_fRound_nearest neg hd (h.trans_lt hn') (fRound neg n' d)
  have hnear' := fUnits_fRound_nearest neg hd hn' (fRound neg n d)
  by_contra! hlt
  have hlt' := Nat.mul_lt_mul_of_pos_right hlt hd
  have heq : n = n' := by
    zify at hlt'
    omega
  rw [heq] at hlt
  exact hlt.false

theorem fUnits_lt_overflow {x : F64} (hx : FiniteF64 x) : fUnits x < (2 ^ 54 - 1) * 2 ^ 2044 * 1 := by
  have hf := fFrac_lt x
  have hexp : fExp x - 1 ≤ 2045 := by
    have he := fExp_lt x
    have hfin : fExp x ≠ 2047 := hx
    omega
  unfold fUnits
  split_ifs
  · exact hf.trans (by decide +kernel)
  · calc (2 ^ 52 + fFrac x) * 2 ^ (fExp x - 1) ≤ (2 ^ 53 - 1) * 2 ^ 2045 := by gcongr <;> omega
      _ < (2 ^ 54 - 1) * 2 ^ 2044 * 1 := by decide +kernel

/-- A value is rounded to itself. -/
theorem fRound_fUnits {x : F64} (hx : FiniteF64 x) : fRound (fSign x) (fUnits x) 1 = x := by
  have hlt := fUnits_lt_overflow hx
  refine eq_of_fUnits_eq (fSign_fRound _ _ _) (le_antisymm ?_ ?_)
  · exact fUnits_fRound_le _ Nat.one_pos hlt x (Nat.mul_one _).ge
  · exact le_fUnits_fRound _ Nat.one_pos hlt x (Nat.mul_one _).le

/-! ## Zero and one -/

theorem fZero_false : fZero false = 0 := by decide

theorem fZero_true : fZero true = 0x8000000000000000 := by decide

@[simp] theorem finite_fZero (neg : Bool) : FiniteF64 (fZero neg) := by cases neg <;> decide

@[simp] theorem fUnits_fZero (neg : Bool) : fUnits (fZero neg) = 0 := by cases neg <;> decide

@[simp] theorem fInt_fZero (neg : Bool) : fInt (fZero neg) = 0 := by cases neg <;> decide

theorem fInt_eq_zero_iff {x : F64} : fInt x = 0 ↔ fUnits x = 0 := by
  rw [← natAbs_fInt, Int.natAbs_eq_zero]

theorem eq_fZero {x : F64} (h : fInt x = 0) : x = fZero (fSign x) :=
  eq_of_fUnits_eq (fSign_fZero _).symm (by rw [fInt_eq_zero_iff.mp h, fUnits_fZero])

/-- The sign bit of a value that is not zero is that of its exact value. -/
theorem fSign_eq_decide {x : F64} (h : fInt x ≠ 0) : fSign x = decide (fInt x < 0) := by
  unfold fInt signedInt at *
  cases hs : fSign x <;> simp only [hs, Bool.false_eq_true, if_true, if_false] at h ⊢
  · exact (decide_eq_false (by omega)).symm
  · exact (decide_eq_true (by omega)).symm

/-- Adding a zero keeps a value, and the sum of two zeros is -0.0 only if both are. -/
theorem fadd_fZero {x : F64} (hx : FiniteF64 x) (neg : Bool) :
    fadd x (fZero neg) = if fInt x = 0 then fZero (fSign x && neg) else x := by
  rw [fadd_finite hx (finite_fZero neg), fInt_fZero, add_zero, fSign_fZero, natAbs_fInt]
  split_ifs with h
  · rfl
  · rw [← fSign_eq_decide h, fRound_fUnits hx]

theorem fmul_fZero {x : F64} (hx : FiniteF64 x) : fmul x (fZero false) = fZero (fSign x) := by
  rw [fmul_finite hx (finite_fZero _), fUnits_fZero, Nat.mul_zero, fRound_zero, fSign_fZero, Bool.bne_false]

@[simp] theorem fSign_fOne : fSign fOne = false := by decide

/-- A value times 1.0 is itself, if CANON_NAN is the only NaN it can be. -/
theorem fmul_fOne {x : F64} (hnan : fIsNaN x = true → x = canonNaN) : fmul x fOne = x := by
  rcases fVal_kinds x with hx | hx | hx
  · rw [fmul_of_nan (.inl hx), hnan ((fIsNaN_eq_true x).mpr hx)]
  · rw [fmul_inf_finite hx finite_fOne, fUnits_fOne, if_neg fOneUnits_pos.ne', fSign_fOne, Bool.bne_false,
      ← eq_fInf hx]
  · have hround := fRound_mul_right (fSign x) (fUnits x) 1 fOneUnits_pos
    rw [Nat.one_mul, fRound_fUnits hx] at hround
    rw [fmul_finite hx finite_fOne, fUnits_fOne, fSign_fOne, Bool.bne_false, hround]

theorem fLt_fZero_finite {x : F64} (hx : FiniteF64 x) : fLt (fZero false) x = decide (0 < fInt x) := by
  rw [fLt_finite (finite_fZero _) hx, fInt_fZero]

theorem fLt_finite_fZero {x : F64} (hx : FiniteF64 x) : fLt x (fZero false) = decide (fInt x < 0) := by
  rw [fLt_finite hx (finite_fZero _), fInt_fZero]

theorem fLt_finite_fOne {x : F64} (hx : FiniteF64 x) : fLt x fOne = decide (fInt x < fOneUnits) := by
  rw [fLt_finite hx finite_fOne, fInt_fOne]

/-! ## Quotients and products of whole numbers -/

/-- An exact natural number. -/
theorem i2f_natCast {m : Nat} (hm : m ≤ 2 ^ 53) :
    FiniteF64 (i2f m) ∧ fSign (i2f m) = false ∧ fUnits (i2f m) = m * fOneUnits :=
  ⟨finite_i2f (n := m) hm, (fSign_i2f m).trans (decide_eq_false (by omega)), fUnits_i2f (n := m) hm⟩

/-- A quotient of exact integers is one rounding of it. -/
theorem fdiv_i2f {n : Int} {m : Nat} (hn : n.natAbs ≤ 2 ^ 53) (hpos : 0 < m) (hm : m ≤ 2 ^ 53) :
    fdiv (i2f n) (i2f m) = fRound (n < 0) (n.natAbs * fOneUnits) m := by
  obtain ⟨hfin, hsign, hunits⟩ := i2f_natCast hm
  have hne := Nat.mul_pos hpos fOneUnits_pos
  rw [fdiv_finite (finite_i2f hn) hfin (by omega), hunits, fUnits_i2f hn, hsign, fSign_i2f,
    Bool.bne_false, fRound_mul_right _ _ _ fOneUnits_pos]

/-- A product with an exact natural number is one rounding of it. -/
theorem fmul_i2f {x : F64} (hx : FiniteF64 x) {m : Nat} (hm : m ≤ 2 ^ 53) :
    fmul x (i2f m) = fRound (fSign x) (fUnits x * m) 1 := by
  obtain ⟨hfin, hsign, hunits⟩ := i2f_natCast hm
  rw [fmul_finite hx hfin, hunits, hsign, Bool.bne_false, ← Nat.mul_assoc,
    ← fRound_mul_right _ (fUnits x * m) 1 fOneUnits_pos, Nat.one_mul]

end Sys2Proof.Machine
end

section
/-! The easing ROM: its entries lie in [0, 1], rise from +0.0 to 1.0 and never fall (41_easing R120, R121). -/

namespace Sys2Proof.Machine

/-! ## The unit interval -/

/-- A value in [0, 1] that is not -0.0. -/
structure InUnit (x : F64) : Prop where
  finite : FiniteF64 x
  sign : fSign x = false
  le_one : fUnits x ≤ fOneUnits

theorem InUnit.fInt_eq {x : F64} (hx : InUnit x) : fInt x = fUnits x := by
  rw [fInt, hx.sign]
  rfl

/-- A quotient of at most one is no overflow. -/
theorem le_one_lt_overflow {n d : Nat} (hd : 0 < d) (h : n ≤ fOneUnits * d) :
    n < (2 ^ 54 - 1) * 2 ^ 2044 * d :=
  h.trans_lt (Nat.mul_lt_mul_of_pos_right (by decide +kernel) hd)

/-- A whole number over one that is not below it is at most one. -/
theorem units_mul_le {n d : Nat} (h : n ≤ d) : n * fOneUnits ≤ fOneUnits * d := by
  rw [Nat.mul_comm]
  exact Nat.mul_le_mul_left _ h

theorem inUnit_fRound {n d : Nat} (hd : 0 < d) (h : n ≤ fOneUnits * d) : InUnit (fRound false n d) where
  finite := (fRound_finite false hd (le_one_lt_overflow hd h)).1
  sign := fSign_fRound _ _ _
  le_one := by
    have hle := fUnits_fRound_le false hd (le_one_lt_overflow hd h) fOne (by rwa [fUnits_fOne])
    rwa [fUnits_fOne] at hle

section
variable {x x' y y' : F64}

theorem fmul_inUnit (hx : InUnit x) (hy : InUnit y) :
    fmul x y = fRound false (fUnits x * fUnits y) fOneUnits := by
  rw [fmul_finite hx.finite hy.finite, hx.sign, hy.sign]
  rfl

theorem InUnit.mul (hx : InUnit x) (hy : InUnit y) : InUnit (fmul x y) := by
  rw [fmul_inUnit hx hy]
  exact inUnit_fRound fOneUnits_pos (Nat.mul_le_mul hx.le_one hy.le_one)

/-- A product in [0, 1] does not fall when its factors rise. -/
theorem InUnit.mul_mono (hx : InUnit x) (hy : InUnit y) (hx' : InUnit x') (hy' : InUnit y')
    (hxx : fUnits x ≤ fUnits x') (hyy : fUnits y ≤ fUnits y') :
    fUnits (fmul x y) ≤ fUnits (fmul x' y') := by
  rw [fmul_inUnit hx hy, fmul_inUnit hx' hy']
  exact fUnits_fRound_mono false fOneUnits_pos
    (le_one_lt_overflow fOneUnits_pos (Nat.mul_le_mul hx'.le_one hy'.le_one)) (Nat.mul_le_mul hxx hyy)

end

/-! ## The progress of an entry (41_easing R120) -/

section
variable {c : Config} (hc : c.Legal)
include hc

/-- The last index of the table is not 0 and far below 2^53, so it is exact as a binary64 value. -/
theorem lastIndex_bounds : 0 < c.tableSize - 1 ∧ c.tableSize - 1 ≤ 2 ^ 53 := by
  omega

/-- One rounding of the exact quotient. -/
theorem easeX_eq {i : Nat} (hi : i ≤ c.tableSize - 1) :
    easeX c i = fRound false (i * fOneUnits) (c.tableSize - 1) := by
  obtain ⟨hpos, hlast⟩ := lastIndex_bounds hc
  rw [easeX, fdiv_i2f (by omega) hpos hlast, Int.natAbs_natCast, decide_eq_false (by omega)]

theorem inUnit_easeX {i : Nat} (hi : i ≤ c.tableSize - 1) : InUnit (easeX c i) := by
  rw [easeX_eq hc hi]
  exact inUnit_fRound (lastIndex_bounds hc).1 (units_mul_le hi)

theorem easeX_mono {i j : Nat} (hij : i ≤ j) (hj : j ≤ c.tableSize - 1) :
    fUnits (easeX c i) ≤ fUnits (easeX c j) := by
  obtain ⟨hpos, -⟩ := lastIndex_bounds hc
  rw [easeX_eq hc (hij.trans hj), easeX_eq hc hj]
  exact fUnits_fRound_mono false hpos (le_one_lt_overflow hpos (units_mul_le hj))
    (Nat.mul_le_mul_right _ hij)

theorem easeX_zero : easeX c 0 = fZero false := by
  rw [easeX_eq hc (Nat.zero_le _), Nat.zero_mul, fRound_zero]

theorem easeX_last : easeX c (c.tableSize - 1) = fOne := by
  have hround := fRound_mul_right false fOneUnits 1 (lastIndex_bounds hc).1
  rw [Nat.one_mul] at hround
  rw [easeX_eq hc le_rfl, Nat.mul_comm, hround, ← fUnits_fOne, ← fSign_fOne, fRound_fUnits finite_fOne]

/-! ## The entries (41_easing R121) -/

theorem easeTable_zero : easeTable c 0 = fZero false := by
  rw [easeTable, easeX_zero hc, fmul_fZero (finite_fZero _), fSign_fZero, fmul_fZero (finite_fZero _),
    fSign_fZero]

theorem easeTable_last : easeTable c (c.tableSize - 1) = fOne := by
  have hone : fmul fOne fOne = fOne := fmul_fOne (by decide)
  rw [easeTable, easeX_last hc, hone, hone]

theorem inUnit_easeTable {i : Nat} (hi : i ≤ c.tableSize - 1) : InUnit (easeTable c i) :=
  ((inUnit_easeX hc hi).mul (inUnit_easeX hc hi)).mul (inUnit_easeX hc hi)

/-- Each rounded product keeps the order of the entries' progress. -/
theorem easeTable_mono {i j : Nat} (hij : i ≤ j) (hj : j ≤ c.tableSize - 1) :
    fUnits (easeTable c i) ≤ fUnits (easeTable c j) := by
  have hi := inUnit_easeX hc (hij.trans hj)
  have hj' := inUnit_easeX hc hj
  have hx := easeX_mono hc hij hj
  exact (hi.mul hi).mul_mono hi (hj'.mul hj') hj' (hi.mul_mono hi hj' hj' hx hx) hx

end

end Sys2Proof.Machine
end

section
/-! Ease by its progress: the clamp, the table index, and the linear map at both ends (41_easing R122 to
R125). -/

namespace Sys2Proof.Machine

/-! ## The clamped progress (41_easing R122, R123) -/

theorem clampProgress_nan {p : F64} (hp : fIsNaN p = true) : clampProgress p = fZero false := if_pos hp

theorem clampProgress_inf {p : F64} (hp : fVal p = .inf (fSign p)) :
    clampProgress p = if fSign p then fZero false else fOne := by
  rw [clampProgress, fIsNaN_of_inf hp, if_neg Bool.false_ne_true, fGt,
    (fLt_of_finite_inf (finite_fZero _) hp).2, (fLt_one_inf hp).1]
  cases fSign p <;> rfl

theorem clampProgress_finite {p : F64} (hp : FiniteF64 p) :
    clampProgress p = if fInt p < 0 then fZero false else if fOneUnits < fInt p then fOne else p := by
  simp only [clampProgress, fIsNaN_of_finite hp, fGt, fLt_finite_fZero hp, fLt_fOne_finite hp,
    decide_eq_true_eq, Bool.false_eq_true, if_false]

/-- A NaN and a progress below 0 are clamped alike (41_easing R123). -/
theorem clampProgress_eq (p : F64) :
    clampProgress p =
      if fIsNaN p = true ∨ fLt p (fZero false) = true then fZero false
      else if fLt fOne p = true then fOne
      else p := by
  rw [clampProgress, fGt, ite_or]

/-- A NaN and a progress that is not above 0 are clamped to a zero (41_easing R123). -/
theorem clampProgress_low {p : F64} (h : fIsNaN p = true ∨ fLt (fZero false) p = false) :
    FiniteF64 (clampProgress p) ∧ fInt (clampProgress p) = 0 := by
  have hzero : FiniteF64 (fZero false) ∧ fInt (fZero false) = 0 := ⟨finite_fZero _, fInt_fZero _⟩
  rcases fVal_kinds p with hp | hp | hp
  · rwa [clampProgress_nan ((fIsNaN_eq_true p).mpr hp)]
  · rw [fIsNaN_of_inf hp, (fLt_of_finite_inf (finite_fZero _) hp).1] at h
    rwa [clampProgress_inf hp, if_pos (by simpa using h)]
  · rw [fIsNaN_of_finite hp, fLt_fZero_finite hp] at h
    have hle : fInt p ≤ 0 := by simpa using h
    rw [clampProgress_finite hp]
    split_ifs
    · exact hzero
    · omega
    · exact ⟨hp, by omega⟩

/-- A progress of 1.0 or more is clamped to 1.0. -/
theorem clampProgress_high {p : F64} (hnan : fIsNaN p = false) (h : fLt p fOne = false) :
    clampProgress p = fOne := by
  rcases fVal_kinds p with hp | hp | hp
  · simp [fIsNaN, hp] at hnan
  · rw [(fLt_of_finite_inf finite_fOne hp).2] at h
    rw [clampProgress_inf hp, h]
    rfl
  · rw [fLt_finite_fOne hp, decide_eq_false_iff_not, not_lt] at h
    have hpos := fOneUnits_pos
    rw [clampProgress_finite hp, if_neg (by omega)]
    split_ifs with habove
    · rfl
    · have hsign := fSign_eq_decide (x := p) (by omega)
      refine eq_of_fUnits_eq ?_ ?_
      · rw [hsign, fSign_fOne, decide_eq_false (by omega)]
      · rw [fUnits_fOne, ← natAbs_fInt]
        omega

/-- The clamped progress is finite and at most 1.0 in magnitude. -/
theorem clampProgress_spec (p : F64) :
    FiniteF64 (clampProgress p) ∧ fUnits (clampProgress p) ≤ fOneUnits := by
  have hzero : FiniteF64 (fZero false) ∧ fUnits (fZero false) ≤ fOneUnits :=
    ⟨finite_fZero _, fUnits_fZero _ ▸ Nat.zero_le _⟩
  have hone : FiniteF64 fOne ∧ fUnits fOne ≤ fOneUnits := ⟨finite_fOne, fUnits_fOne.le⟩
  rcases fVal_kinds p with hp | hp | hp
  · rwa [clampProgress_nan ((fIsNaN_eq_true p).mpr hp)]
  · rw [clampProgress_inf hp]
    split_ifs
    exacts [hzero, hone]
  · rw [clampProgress_finite hp]
    split_ifs
    · exact hzero
    · exact hone
    · refine ⟨hp, ?_⟩
      rw [← natAbs_fInt]
      omega

/-! ## The table index (41_easing R124) -/

/-- The floor of a finite value is at most that of its magnitude. -/
theorem ffloor_le {x : F64} (hx : FiniteF64 x) : ffloor x ≤ fUnits x / fOneUnits := by
  simp only [ffloor, fVal_finite hx]
  split_ifs
  exacts [Nat.zero_le _, le_rfl]

section
variable {c : Config} (hc : c.Legal) {p frm upto : F64}
include hc

/-- The floor of one rounding of the clamped progress times the last index (41_easing R122). -/
theorem easeIndex_eq (p : F64) :
    easeIndex c p =
      ffloor (fRound (fSign (clampProgress p)) (fUnits (clampProgress p) * (c.tableSize - 1)) 1) := by
  rw [easeIndex, fmul_i2f (clampProgress_spec p).1 (lastIndex_bounds hc).2]

/-- Rounding is monotonic and the last index is exact, so the index is at most it. -/
theorem easeIndex_le_last (p : F64) : easeIndex c p ≤ c.tableSize - 1 := by
  obtain ⟨-, hone⟩ := clampProgress_spec p
  obtain ⟨-, hlast⟩ := lastIndex_bounds hc
  obtain ⟨-, -, hunits⟩ := i2f_natCast hlast
  have hle : fUnits (clampProgress p) * (c.tableSize - 1) ≤ (c.tableSize - 1) * fOneUnits := by
    rw [Nat.mul_comm]
    exact Nat.mul_le_mul_left _ hone
  have hlt := units_lt_overflow (hle.trans (Nat.mul_le_mul_right _ hlast)) 1 Nat.one_pos
  have hround := fUnits_fRound_le (fSign (clampProgress p)) Nat.one_pos hlt (i2f (c.tableSize - 1 : Nat))
    (by rwa [hunits, Nat.mul_one])
  rw [hunits, Nat.mul_comm _ fOneUnits] at hround
  rw [easeIndex_eq hc]
  exact (ffloor_le (fRound_finite _ Nat.one_pos hlt).1).trans (Nat.div_le_of_le_mul hround)

/-- A zero gives the first entry. -/
theorem easeIndex_low (h : fIsNaN p = true ∨ fLt (fZero false) p = false) : easeIndex c p = 0 := by
  obtain ⟨-, hzero⟩ := clampProgress_low h
  have hfloor := ffloor_le (finite_fZero (fSign (clampProgress p)))
  rw [fUnits_fZero, Nat.zero_div] at hfloor
  rw [easeIndex_eq hc, fInt_eq_zero_iff.mp hzero, Nat.zero_mul, fRound_zero]
  exact Nat.le_zero.mp hfloor

/-- 1.0 gives the last entry. -/
theorem easeIndex_high (hnan : fIsNaN p = false) (h : fLt p fOne = false) :
    easeIndex c p = c.tableSize - 1 := by
  obtain ⟨hfin, hsign, hunits⟩ := i2f_natCast (lastIndex_bounds hc).2
  have hround := fRound_fUnits hfin
  rw [hsign, hunits, Nat.mul_comm] at hround
  rw [easeIndex_eq hc, clampProgress_high hnan h, fSign_fOne, fUnits_fOne, hround, ffloor_finite hfin hsign,
    hunits, Nat.mul_div_cancel _ fOneUnits_pos]

/-! ## The ends of the linear map (41_easing R125) -/

theorem ease_low (h : fIsNaN p = true ∨ fLt (fZero false) p = false) :
    ease c p frm upto = fadd frm (fmul (fsub upto frm) (fZero false)) := by
  rw [ease, easeIndex_low hc h, easeTable_zero hc]

theorem ease_high (hnan : fIsNaN p = false) (h : fLt p fOne = false) :
    ease c p frm upto = fadd frm (fsub upto frm) := by
  have hdiff : fmul (fsub upto frm) fOne = fsub upto frm :=
    fmul_fOne (nanExactly_fadd upto (fneg frm)).canonical
  rw [ease, easeIndex_high hc hnan h, easeTable_last hc, hdiff]

end

/-- Adding a zero keeps every value but -0.0. -/
theorem fadd_fZero_of_ne {x : F64} (hx : FiniteF64 x) (hne : x ≠ fZero true) (neg : Bool) :
    fadd x (fZero neg) = x := by
  rw [fadd_fZero hx]
  split_ifs with h
  · have hzero := eq_fZero h
    cases hs : fSign x with
    | false => rw [hs] at hzero; exact hzero.symm
    | true => rw [hs] at hzero; exact absurd hzero hne
  · rfl

/-- From -0.0 the difference lies below 0 as `to` does, and is +0.0 for both zeros. -/
theorem fsub_fZero_true {x : F64} (hx : FiniteF64 x) :
    FiniteF64 (fsub x (fZero true)) ∧ fSign (fsub x (fZero true)) = decide (fInt x < 0) := by
  have hneg : fneg (fZero true) = fZero false := by decide
  rw [fsub, hneg, fadd_fZero hx, Bool.and_false]
  split_ifs with h
  · rw [h]
    exact ⟨finite_fZero _, fSign_fZero _⟩
  · exact ⟨hx, fSign_eq_decide h⟩

/-- From -0.0 the sign of the difference decides the sign of the zero at the low end (entry 26). -/
theorem fadd_fZero_true_fmul {x : F64} (hx : FiniteF64 x) :
    fadd (fZero true) (fmul (fsub x (fZero true)) (fZero false)) =
      if fLt x (fZero false) = true then fZero true else fZero false := by
  obtain ⟨hfin, hsign⟩ := fsub_fZero_true hx
  rw [fmul_fZero hfin, hsign, fadd_fZero (finite_fZero _), if_pos (fInt_fZero _), fSign_fZero, Bool.true_and,
    fLt_finite_fZero hx]
  split_ifs with h
  · rw [h]
  · rw [Bool.eq_false_iff.mpr h]

end Sys2Proof.Machine
end

section
/-! The statements about the easing unit, settled. -/

namespace Sys2Proof.Machine

/-- Settles O10: LUTRD is a command that takes an index, and its value is that entry of the table. -/
theorem lutrdReadsTheTable : Obligations.LutrdReadsTheTable := by
  intro s idx
  exact ⟨fun hp => (exec_lutrd hp idx).1, fun hp => (exec_lutrd hp idx).2, fun hp => exec_busy hp _,
    fun v hp hop => State.writeCmd_index hp (opcodeRow_lutrd hop),
    fun hc => ⟨(easeTable_zero hc).trans fZero_false, easeTable_last hc⟩⟩

/-- Settles O26: each entry is two rounded products of one rounded quotient, and rounding keeps the order. -/
theorem easeTableRisesFromZeroToOne : Obligations.EaseTableRisesFromZeroToOne := by
  intro c hc
  refine ⟨fun _ => rfl, (easeTable_zero hc).trans fZero_false, easeTable_last hc, fun i hi => ?range,
    fun i j hij hj => ?order⟩
  case range =>
    have hunit := inUnit_easeTable hc (i := i) (by omega)
    rw [hunit.fInt_eq, ← natCast_fOneUnits]
    exact ⟨hunit.finite, Int.natCast_nonneg _, Int.ofNat_le.mpr hunit.le_one⟩
  case order =>
    have hi := inUnit_easeTable hc (i := i) (by omega)
    have hj' := inUnit_easeTable hc (i := j) (by omega)
    rw [hi.fInt_eq, hj'.fInt_eq]
    exact Int.ofNat_le.mpr (easeTable_mono hc hij (by omega))

/-- Settles O27: the index is at most the last one, for every clamped progress. -/
theorem easeIndexIsInTheTable : Obligations.EaseIndexIsInTheTable := by
  intro c p hc
  obtain ⟨hpos, -⟩ := lastIndex_bounds hc
  exact ⟨(easeIndex_le_last hc p).trans_lt (by omega), easeIndex_low hc (.inr (by decide))⟩

/-- Settles O28: by the entry at each end, and by the sign of the zero that is added to `from`. -/
theorem easeEndpoints : Obligations.EaseEndpoints := by
  intro c p frm upto hc
  rw [← fZero_false, ← fZero_true]
  refine ⟨fun hlow => ⟨ease_low hc hlow, fun hfrm hdiff hne => ?keeps, fun hupto => ?negativeZero⟩,
    ease_high hc⟩
  case keeps => rw [ease_low hc hlow, fmul_fZero hdiff, fadd_fZero_of_ne hfrm hne]
  case negativeZero => rw [ease_low hc hlow, fadd_fZero_true_fmul hupto]

/-- Settles O9: EASE has one word, and its value is Ease of the operands, the clamp in two cases. -/
theorem easeInterpolates : Obligations.EaseInterpolates := by
  intro s
  refine ⟨fun hp => ?value, fun hp => exec_busy hp _,
    fun v hp hop => State.writeCmd_bare hp hop (opcodeRow_ease hop), by decide +kernel⟩
  case value =>
    rw [exec_ease hp, ease, easeIndex, clampProgress_eq, fZero_false]
    rfl

end Sys2Proof.Machine
end

section
/-! The crossfade step by cases, its iteration, and what XSTEP does to its slot (42_crossfade R141 to R147). -/

namespace Sys2Proof.Machine

/-! ## TCUR as a signed count -/

/-- Below the wrap of 42_crossfade R147, counting up is addition of integers. -/
theorem toInt_add_ofNat {c : Word} {k : Nat} (h : c.toInt + k < 2 ^ 63) :
    (c + BitVec.ofNat 64 k).toInt = c.toInt + k := by
  have hlow := c.le_toInt
  rw [BitVec.toInt_add, BitVec.toInt_ofNat', Int.add_bmod_bmod]
  exact Int.bmod_eq_of_le (by omega) (by omega)

theorem toInt_add_one {c : Word} (h : c ≠ 0x7FFFFFFFFFFFFFFF) : (c + 1).toInt = c.toInt + 1 := by
  have hhigh := c.toInt_lt
  have hmax : c.toInt ≠ 2 ^ 63 - 1 := fun hc => h (BitVec.toInt_inj.mp hc)
  exact toInt_add_ofNat (k := 1) (by omega)

/-! ## One step (42_crossfade R142, R144) -/

section
variable {c : Config} {frm upto : F64} {r : Work}

/-- An INACTIVE record is left as it is (42_crossfade R141). -/
theorem crossfade_inactive (h : r.tlen.toInt < 0) : crossfade c frm upto r = r :=
  if_neg fun ha => h.not_ge (of_decide_eq_true ha)

/-- TLEN = -1, which the last step leaves, is INACTIVE. -/
theorem crossfade_stays_ended (v : F64) (n : Word) :
    crossfade c frm upto { vol := v, tlen := BitVec.allOnes 64, tcur := n } =
      { vol := v, tlen := BitVec.allOnes 64, tcur := n } := by
  have hneg : (BitVec.allOnes 64).toInt < 0 := by decide
  exact crossfade_inactive (r := { vol := v, tlen := BitVec.allOnes 64, tcur := n }) hneg

/-- An ACTIVE record takes the step of 42_crossfade R142. -/
theorem crossfade_active (h : 0 ≤ r.tlen.toInt) : crossfade c frm upto r = xfStep c frm upto r :=
  if_pos (decide_eq_true h)

/-- The last step of a transition (42_crossfade R144). -/
theorem crossfade_ends (h : 0 ≤ r.tlen.toInt) (hend : r.tlen.toInt ≤ (r.tcur + 1).toInt) :
    crossfade c frm upto r = { vol := upto, tlen := BitVec.allOnes 64, tcur := r.tcur + 1 } := by
  rw [crossfade_active h]
  exact if_pos hend

/-- A step before the last (42_crossfade R143). -/
theorem crossfade_continues (h : 0 ≤ r.tlen.toInt) (hrun : (r.tcur + 1).toInt < r.tlen.toInt) :
    crossfade c frm upto r =
      { vol := ease c (progress (r.tcur + 1) r.tlen) frm upto, tlen := r.tlen, tcur := r.tcur + 1 } := by
  rw [crossfade_active h]
  exact if_neg hrun.not_ge

/-- A step replaces VOLUME whatever it was. -/
theorem crossfade_ignores_vol (h : 0 ≤ r.tlen.toInt) (v : F64) :
    crossfade c frm upto { r with vol := v } = crossfade c frm upto r := by
  rw [crossfade_active h, crossfade_active (r := { r with vol := v }) h]
  rfl

/-- From 2^63 - 1 the increment wraps below every TLEN (42_crossfade R147). -/
theorem crossfade_wraps (h : 0 ≤ r.tlen.toInt) (hmax : r.tcur = 0x7FFFFFFFFFFFFFFF) :
    crossfade c frm upto r =
      { vol := ease c (fdiv (i2f (-2 ^ 63)) (i2f r.tlen.toInt)) frm upto
        tlen := r.tlen, tcur := 0x8000000000000000 } := by
  have hwrap : r.tcur + 1 = 0x8000000000000000 := by rw [hmax]; decide
  have hmin : (0x8000000000000000 : Word).toInt = -2 ^ 63 := by decide
  have hrun : (r.tcur + 1).toInt < r.tlen.toInt := by rw [hwrap, hmin]; omega
  rw [crossfade_continues h hrun, hwrap, progress, hmin]

/-! ## Many steps (42_crossfade R145) -/

/-- The record with TCUR counted up k times. -/
def Work.countUp (r : Work) (k : Nat) : Work := { r with tcur := r.tcur + BitVec.ofNat 64 k }

theorem Work.countUp_add_one (r : Work) (k : Nat) :
    (r.countUp k).tcur + 1 = r.tcur + BitVec.ofNat 64 (k + 1) := by
  rw [BitVec.ofNat_add, ← BitVec.add_assoc]; rfl

/-- No count up to TLEN wraps. -/
theorem Work.toInt_countUp_add_one {k : Nat} (hk : r.tcur.toInt + (k + 1 : Nat) ≤ r.tlen.toInt) :
    ((r.countUp k).tcur + 1).toInt = r.tcur.toInt + (k + 1 : Nat) := by
  have hhigh := r.tlen.toInt_lt
  rw [Work.countUp_add_one, toInt_add_ofNat (by omega)]

/-- Until the end, k + 1 steps are the one step of the record counted up k times. -/
theorem crossfade_iterate_succ (h : 0 ≤ r.tlen.toInt) (k : Nat) (hk : r.tcur.toInt + k < r.tlen.toInt) :
    (crossfade c frm upto)^[k + 1] r = crossfade c frm upto (r.countUp k) := by
  induction k with
  | zero => simp [Work.countUp]
  | succ k ih =>
    have hrun : ((r.countUp k).tcur + 1).toInt < r.tlen.toInt :=
      (Work.toInt_countUp_add_one hk.le).trans_lt hk
    calc (crossfade c frm upto)^[k + 1 + 1] r
        = crossfade c frm upto (crossfade c frm upto (r.countUp k)) := by
          rw [Function.iterate_succ_apply', ih (by omega)]
      _ = crossfade c frm upto { r.countUp (k + 1) with vol := _ } := by
          rw [crossfade_continues (r := r.countUp k) h hrun, Work.countUp_add_one]
          rfl
      _ = crossfade c frm upto (r.countUp (k + 1)) := crossfade_ignores_vol (r := r.countUp (k + 1)) h _

/-- Before the end VOLUME is eased to the count so far (42_crossfade R145 (1)). -/
theorem crossfade_iterate_running (h : 0 ≤ r.tlen.toInt) {k : Nat} (hpos : 0 < k)
    (hk : r.tcur.toInt + k < r.tlen.toInt) :
    (crossfade c frm upto)^[k] r =
      { vol := ease c (fdiv (i2f (r.tcur.toInt + k)) (i2f r.tlen.toInt)) frm upto
        tlen := r.tlen, tcur := r.tcur + BitVec.ofNat 64 k } := by
  obtain ⟨j, rfl⟩ := Nat.exists_eq_add_one.mpr hpos
  have hcount := Work.toInt_countUp_add_one hk.le
  rw [crossfade_iterate_succ h j (by omega), crossfade_continues (r := r.countUp j) h (hcount ▸ hk), progress,
    hcount, Work.countUp_add_one]
  rfl

/-- The step that counts up to TLEN is the last one (42_crossfade R145 (1)). -/
theorem crossfade_iterate_last (h : 0 ≤ r.tlen.toInt) {j : Nat}
    (hj : r.tcur.toInt + (j + 1 : Nat) = r.tlen.toInt) :
    (crossfade c frm upto)^[j + 1] r = { vol := upto, tlen := BitVec.allOnes 64, tcur := r.tlen } := by
  have hcount : ((r.countUp j).tcur + 1).toInt = r.tlen.toInt := (Work.toInt_countUp_add_one hj.le).trans hj
  rw [crossfade_iterate_succ h j (by omega), crossfade_ends (r := r.countUp j) h hcount.ge,
    BitVec.toInt_inj.mp hcount]

/-- Once ended, a transition stays ended (42_crossfade R141, R145). -/
theorem crossfade_iterate_ended (h : 0 ≤ r.tlen.toInt) (hlt : r.tcur.toInt < r.tlen.toInt) {k : Nat}
    (hk : r.tlen.toInt ≤ r.tcur.toInt + k) :
    (crossfade c frm upto)^[k] r = { vol := upto, tlen := BitVec.allOnes 64, tcur := r.tlen } := by
  obtain ⟨j, hj⟩ := Int.exists_add_of_le hlt
  obtain ⟨m, rfl⟩ : ∃ m, k = m + (j + 1) := Nat.exists_eq_add_of_le' (by omega)
  rw [Function.iterate_add_apply, crossfade_iterate_last h (by omega)]
  exact Function.iterate_fixed (crossfade_stays_ended upto r.tlen) m

end

/-! ## XSTEP (42_crossfade R146) -/

theorem State.slot_of_getElem? {s : State} {i : Nat} {x : Slot} (h : s.slots[i]? = some x) :
    s.slot i = x := by
  rw [State.slot, List.getD_eq_getElem?_getD, h]; rfl

theorem opcodeRow_xstep {v : Word} (h : v.toNat % 2 ^ 8 = 0x40) :
    opcodeRow v = some (.ci, .xstep (wordIdx v)) := by
  rw [opcodeRow, wordOp_eq, h]; rfl

/-- An existing slot takes one crossfade step of its record, and nothing else but STATUS changes. -/
theorem exec_xstep {s : State} {idx : Nat} {x : Slot} (hp : s.phase = .idle) (hidx : idx < s.cfg.maxSources)
    (hx : s.slots[idx]? = some x) :
    exec (.xstep idx) s =
      .next
        { s.completed with
          slots := s.slots.set idx (x.store (crossfade s.cfg x.tfrom x.tto x.record)) } := by
  have hslot : s.accept.slot idx = x := State.slot_of_getElem? hx
  rw [exec_eq_issue, State.issue_idle hp, commandRule, State.accept_cfg, if_pos hidx, hslot]
  rfl

theorem exec_xstep_outside {s : State} {idx : Nat} (hp : s.phase = .idle) (hidx : s.cfg.maxSources ≤ idx) :
    exec (.xstep idx) s = .next (s.rejected 0x01 0) := by
  rw [exec_eq_issue, State.issue_idle hp, commandRule, State.accept_cfg, if_neg hidx.not_gt]
  rfl

/-- The fields of an ACTIVE slot after its step. -/
theorem Slot.store_crossfade_active (c : Config) {x : Slot} (h : 0 ≤ x.tlen.toInt) :
    x.store (crossfade c x.tfrom x.tto x.record) =
      { x with
        tcur := x.tcur + 1
        volume :=
          if x.tlen.toInt ≤ (x.tcur + 1).toInt then x.tto
          else ease c (progress (x.tcur + 1) x.tlen) x.tfrom x.tto
        tlen := if x.tlen.toInt ≤ (x.tcur + 1).toInt then BitVec.allOnes 64 else x.tlen } := by
  by_cases hend : x.tlen.toInt ≤ (x.tcur + 1).toInt
  · rw [crossfade_ends (r := x.record) h hend, if_pos hend, if_pos hend]
    rfl
  · rw [crossfade_continues (r := x.record) h (not_le.mp hend), if_neg hend, if_neg hend]
    rfl

theorem Slot.store_crossfade_inactive (c : Config) {x : Slot} (h : x.tlen.toInt < 0) :
    x.store (crossfade c x.tfrom x.tto x.record) = x := by
  rw [crossfade_inactive (r := x.record) h]
  rfl

end Sys2Proof.Machine
end

section
/-! The statements about the crossfade, settled. -/

namespace Sys2Proof.Machine

/-- Settles O12: XSTEP steps the record of an existing slot; an INACTIVE record is stored back as it was. -/
theorem xstepStepsOneSlot : Obligations.XstepStepsOneSlot := by
  intro s idx x
  refine ⟨fun hp hidx hx hactive => ?active, fun hp hidx hx hinactive => ?inactive, exec_xstep_outside,
    fun hp => exec_busy hp _, fun v hp hop => State.writeCmd_index hp (opcodeRow_xstep hop)⟩
  case active =>
    rw [exec_xstep hp hidx hx, Slot.store_crossfade_active _ hactive]
    rfl
  case inactive =>
    obtain ⟨hlen, rfl⟩ := List.getElem?_eq_some_iff.mp hx
    rw [exec_xstep hp hidx hx, Slot.store_crossfade_inactive _ hinactive, List.set_getElem_self]
    rfl

/-- Settles O29: before the end k steps are one step of the record counted up, and the end is a fixed point. -/
theorem crossfadeConverges : Obligations.CrossfadeConverges := by
  intro cfg frm upto r h
  refine ⟨fun hlt => ⟨fun k hpos hk => ?running, fun k hk => ?ended⟩, fun hge hmax => ?atOnce,
    crossfade_wraps h⟩
  case running => exact crossfade_iterate_running h hpos (by omega)
  case ended => exact crossfade_iterate_ended h hlt (by omega)
  case atOnce =>
    have hcount := toInt_add_one hmax
    exact crossfade_ends h (by omega)

end Sys2Proof.Machine
end

section
/-! The mixing function: it does not look at the order of its operands, silence is neutral to it (43_mixer R160,
R161), and what MIX2 puts into RES (R164). -/

namespace Sys2Proof.Machine

/-! ## The order of operands -/

theorem fmul_comm (a b : F64) : fmul a b = fmul b a := by
  rw [fmul, fmul]
  cases fVal a <;> cases fVal b <;> simp only [Nat.mul_comm, bne_comm]

theorem fadd_comm (a b : F64) : fadd a b = fadd b a := by
  rw [fadd, fadd]
  cases fVal a <;> cases fVal b
  case inf.inf s t => cases s <;> cases t <;> rfl
  all_goals simp only [Int.add_comm, Bool.and_comm]

theorem mixPair_comm (a b : F64) : mixPair a b = mixPair b a := by
  rw [mixPair, mixPair, fmul_comm a b, fadd_comm a b]

/-! ## NaN and silence -/

/-- A product of the operands that is a NaN makes the mix CANON_NAN. -/
theorem mixPair_of_nan_product {a b : F64} (h : fVal (fmul a b) = .nan) : mixPair a b = canonNaN := by
  have habs : fVal (fabs (fmul a b)) = .nan := by
    rw [fabs, if_pos ((fIsNaN_eq_true _).mpr h), fVal_canonNaN]
  have hneg : fVal (fneg (fabs (fmul a b))) = .nan := by
    rw [← fIsNaN_eq_true, fIsNaN_iff, fExp_fneg, fFrac_fneg, ← fIsNaN_iff, fIsNaN_eq_true, habs]
  have hsub : fsub fOne (fabs (fmul a b)) = canonNaN := fadd_of_nan (.inr hneg)
  rw [mixPair, hsub, fmul_of_nan (.inl fVal_canonNaN)]

/-- A NaN operand makes the mix CANON_NAN (43_mixer R160). -/
theorem mixPair_of_nan {a b : F64} (h : fVal a = .nan ∨ fVal b = .nan) : mixPair a b = canonNaN :=
  mixPair_of_nan_product (by rw [fmul_of_nan h, fVal_canonNaN])

/-- Silence mixed with an infinity is CANON_NAN: their product is a NaN (43_mixer R161). -/
theorem mixPair_fZero_inf {x : F64} {neg : Bool} (hx : fVal x = .inf neg) :
    mixPair (fZero false) x = canonNaN :=
  mixPair_of_nan_product
    (by rw [fmul_finite_inf (finite_fZero _) hx, if_pos (fUnits_fZero _), fVal_canonNaN])

/-- Silence mixed with a finite value is their sum: 1.0 less the zero product is 1.0 (43_mixer R161). -/
theorem mixPair_fZero {x : F64} (hx : FiniteF64 x) : mixPair (fZero false) x = fadd x (fZero false) := by
  have hfactor : fsub fOne (fabs (fmul (fZero false) x)) = fOne := by
    have habs : fneg (fabs (fZero (fSign x))) = fZero true := by cases fSign x <;> decide
    rw [fmul_comm, fmul_fZero hx, fsub, habs, fadd_fZero_of_ne finite_fOne (by decide)]
  rw [mixPair, hfactor, fmul_comm, fmul_fOne (nanExactly_fadd _ _).canonical, fadd_comm]

/-- A zero of either sign leaves silence as it is. -/
theorem mixPair_fZero_fZero (neg : Bool) : mixPair (fZero false) (fZero neg) = fZero false := by
  rw [mixPair_fZero (finite_fZero _), fadd_fZero (finite_fZero _), if_pos (fInt_fZero _), Bool.and_false]

/-! ## MIX2 (43_mixer R164) -/

theorem opcodeRow_mix2 {v : Word} (h : v.toNat % 2 ^ 8 = 0x30) : opcodeRow v = some (.c0, .mix2) := by
  rw [opcodeRow, wordOp_eq, h]; rfl

theorem exec_mix2 {s : State} (hp : s.phase = .idle) :
    exec .mix2 s = .next { s.completed with res := mixPair s.opa s.opb } := by
  rw [exec_eq_issue, State.issue_idle hp]
  rfl

/-! ## The fold (43_mixer R162) -/

theorem mixFold_append (xs : List F64) (x : F64) : mixFold (xs ++ [x]) = mixPair (mixFold xs) x :=
  List.foldl_concat ..

theorem mixFold_singleton (x : F64) : mixFold [x] = mixPair (fZero false) x := rfl

/-- Zeros of either sign fold to silence. -/
theorem mixFold_of_zeros {xs : List F64} (h : ∀ x ∈ xs, ∃ neg, x = fZero neg) :
    mixFold xs = fZero false := by
  induction xs using List.reverseRecOn with
  | nil => rfl
  | append_singleton xs x ih =>
    obtain ⟨neg, rfl⟩ := h x (by simp)
    rw [mixFold_append, ih fun y hy => h y (List.mem_append_left _ hy), mixPair_fZero_fZero]

end Sys2Proof.Machine
end

section
/-! The statements about the mixing function, settled. -/

namespace Sys2Proof.Machine

/-- Settles O11: MIX2 has one word, and its value is Mix of the operands. -/
theorem mix2MixesTwoValues : Obligations.Mix2MixesTwoValues := by
  intro s
  refine ⟨exec_mix2, fun hp => exec_busy hp _,
    fun v hp hop => State.writeCmd_bare hp hop (opcodeRow_mix2 hop), fun hnan => ?nan, ?cancels⟩
  case nan =>
    rw [fIsNaN_eq_true, fIsNaN_eq_true] at hnan
    exact mixPair_of_nan hnan
  case cancels => decide +kernel

/-- Settles O30: its product and its sum are commutative, and every NaN they give is CANON_NAN. -/
theorem mixCommutes : Obligations.MixCommutes := mixPair_comm

/-- Settles O31: the sum with a zero keeps a finite value but -0.0, and the product of a zero and an infinity
is a NaN. -/
theorem mixWithSilence : Obligations.MixWithSilence := by
  intro x
  refine ⟨fun hx hne => ?finite, mixPair_fZero_fZero true, fun hinf => ?infinite⟩
  case finite => exact (mixPair_fZero hx).trans (fadd_fZero_of_ne hx hne false)
  case infinite => exact hinf.elim mixPair_fZero_inf mixPair_fZero_inf

/-- Settles O32: by the left fold, and the two orders of the spec's example evaluated. -/
theorem foldIsAscendingFromZero : Obligations.FoldIsAscendingFromZero :=
  ⟨rfl, mixFold_append, by decide +kernel, by decide +kernel⟩

end Sys2Proof.Machine
end

section
/-! A MIX told by its checks: the first that fails is reported with its slot, and a MIX that passes them all
loads WORK and starts a run (43_mixer R167 to R170). -/

namespace Sys2Proof.Machine

theorem opcodeRow_mix_of_op {v : Word} (h : v.toNat % 2 ^ 8 = 0x01) : opcodeRow v = some (.c0, .mix) := by
  rw [opcodeRow, wordOp_eq, h]; rfl

/-! ## The checks of a slot (43_mixer R168, R169) -/

section
variable (s : State) (i : Nat)

theorem State.bufShort_iff : s.bufShort i = true ↔ s.ShortBuffer i := decide_eq_true_iff

theorem State.bufOutside_iff : s.bufOutside i = true ↔ s.BufferOutside i := by
  have hreq : s.wholeBytes = s.req := rfl
  rw [State.bufOutside, Bool.not_eq_true', Bool.eq_false_iff, Ne, State.inDmem_iff, State.BufferOutside, hreq]
  omega

theorem State.bufOverlaps_iff : s.bufOverlaps i = true ↔ s.BufferOverlaps i := by
  rw [State.bufOverlaps, Window.meets_iff]
  exact and_left_comm

end

/-- The slot found by a check is the first one below N that fails it. -/
theorem State.firstSlot_eq_some_iff {s : State} {p : Nat → Bool} {i : Nat} :
    s.firstSlot p = some i ↔ p i = true ∧ i < s.count ∧ ∀ j < i, p j = false := by
  simp only [State.firstSlot, List.find?_range_eq_some, List.mem_range, Bool.not_eq_true']

/-- The first slot below N that fails a check, the check spelled out as P. -/
theorem State.firstSlot_of_first {s : State} {p : Nat → Bool} {P : Nat → Prop} (hp : ∀ j, p j = true ↔ P j)
    {i : Nat} (hi : i < s.count) (hfails : P i) (hfirst : ∀ j < i, ¬ P j) : s.firstSlot p = some i :=
  State.firstSlot_eq_some_iff.mpr
    ⟨(hp i).mpr hfails, hi, fun j hj => Bool.eq_false_iff.mpr (mt (hp j).mp (hfirst j hj))⟩

/-- No slot below N fails a check, the check spelled out as P. -/
theorem State.firstSlot_of_none {s : State} {p : Nat → Bool} {P : Nat → Prop} (hp : ∀ j, p j = true ↔ P j)
    (hpass : ∀ j < s.count, ¬ P j) : s.firstSlot p = none :=
  State.firstSlot_eq_none_iff.mpr fun j hj => Bool.eq_false_iff.mpr (mt (hp j).mp (hpass j hj))

/-! ## Validation (43_mixer R167) -/

/-- Validation, with checks 1 to 6 spelled out. -/
theorem State.mixError_eq (s : State) :
    s.mixError =
      if s.nbuf ≠ s.nrec then some (.argCount, 0)
      else if s.cfg.maxSources < s.nbuf.toNat then some (.argTooMany, 0)
      else if s.bitdepth.toNat % 8 ≠ 0 then some (.fmtBitdepth, 0)
      else if ¬ s.cfg.AcceptsWidth (s.bitdepth.toNat / 8) then some (.fmtWidth, 0)
      else if s.channels = 0 then some (.fmtChannels, 0)
      else if 0 < s.length.toNat ∧ s.cfg.memSize < s.outBase.toNat + s.length.toNat then some (.alloc, 0)
      else s.checkBuffers := by
  have hwidth : (!widthLegal s.cfg s.bs) = true ↔ ¬ s.cfg.AcceptsWidth (s.bitdepth.toNat / 8) := by
    rw [Bool.not_eq_true', Bool.eq_false_iff, Ne, widthLegal_iff, State.bs]
  have hchannels : s.channels.toNat = 0 ↔ s.channels = 0 := by
    rw [← BitVec.toNat_inj]
    rfl
  have hout : (!s.inDmem s.outBase.toNat s.len) = true ↔
      0 < s.length.toNat ∧ s.cfg.memSize < s.outBase.toNat + s.length.toNat := by
    rw [Bool.not_eq_true', Bool.eq_false_iff, Ne, State.inDmem_iff, State.len]
    omega
  simp only [State.mixError, hwidth, hchannels, hout, State.count]

/-- With checks 1 to 6 passed the slots are checked. -/
theorem State.mixError_of_formatOk {s : State} (h : s.FormatOk) : s.mixError = s.checkBuffers := by
  obtain ⟨hcount, hmax, hdepth, hwidth, hchannels, hout⟩ := h
  rw [s.mixError_eq, if_neg (not_not.mpr hcount), if_neg hmax.not_gt, if_neg (not_not.mpr hdepth),
    if_neg (not_not.mpr hwidth), if_neg hchannels, if_neg hout]

theorem exec_mix_rejected {s : State} (hp : s.phase = .idle) {c : ErrCode} {slot : Nat}
    (h : s.mixError = some (c, slot)) : exec .mix s = .next (s.rejected c.code slot) := by
  have h' : s.accept.mixError = some (c, slot) := h
  rw [exec_eq_issue, State.issue_idle hp, commandRule, h']
  rfl

/-- With checks 1 to 6 passed, what the checks of the slots find is reported (43_mixer R168). -/
theorem exec_mix_of_checkBuffers {s : State} (hp : s.phase = .idle) (hf : s.FormatOk) {c : ErrCode} {slot : Nat}
    (h : s.checkBuffers = some (c, slot)) : exec .mix s = .next (s.rejected c.code slot) :=
  exec_mix_rejected hp ((State.mixError_of_formatOk hf).trans h)

/-! ## Acceptance (43_mixer R170) -/

/-- WORK as an accepted MIX loads it. -/
theorem State.acceptMix_work_getElem? (s : State) (i : Nat) :
    s.acceptMix.work[i]? = s.work[i]?.map fun r => if i < s.count then (s.slot i).record else r :=
  List.getElem?_mapIdx

end Sys2Proof.Machine
end

section
/-! The statements about the validation and the acceptance of a MIX, settled. -/

namespace Sys2Proof.Machine

/-- Settles O13: an accepted MIX is `acceptMix`, whose WORK is the slots' records below N. -/
theorem acceptedMixStartsARun : Obligations.AcceptedMixStartsARun := by
  intro s
  refine ⟨fun hp hok => ⟨_, exec_mix_accepted hp (s.mixError_eq_none_iff_acceptsMix.mpr hok), rfl, ?loaded, ?kept⟩,
    fun hp => exec_busy hp _, fun v hp hop => State.writeCmd_bare hp hop (opcodeRow_mix_of_op hop)⟩
  case loaded =>
    intro i hlen hi
    rw [State.acceptMix_work_getElem?, State.accept_work, List.getElem?_eq_getElem hlen, Option.map_some,
      if_pos (show i < s.accept.count from hi)]
    rfl
  case kept =>
    intro i hi
    rw [State.acceptMix_work_getElem?]
    simp only [if_neg (show ¬ i < s.accept.count from hi.not_gt), State.accept_work, Option.map_id']

/-- Settles O14: validation spelled out, check by check. -/
theorem mixReportsTheFirstFailedCheck : Obligations.MixReportsTheFirstFailedCheck := by
  intro s hp
  refine ⟨fun hcount => ?count, fun hcount => ⟨fun hmax => ?tooMany, fun hmax => ⟨fun hdepth => ?depth,
      fun hdepth => ⟨fun hwidth => ?width, fun hwidth => ⟨fun hchannels => ?channels,
        fun hchannels hpos hout => ?alloc⟩⟩⟩⟩,
    fun hf => ⟨fun i hi hshort hfirst => ?short, fun hlong => ⟨fun i hi houtside hfirst => ?outside,
      fun hinside i hi hoverlaps hfirst => ?overlaps⟩⟩⟩
  case count =>
    exact exec_mix_rejected (c := .argCount) hp (by rw [s.mixError_eq, if_pos hcount])
  case tooMany =>
    exact exec_mix_rejected (c := .argTooMany) hp
      (by rw [s.mixError_eq, if_neg (not_not.mpr hcount), if_pos hmax])
  case depth =>
    exact exec_mix_rejected (c := .fmtBitdepth) hp
      (by rw [s.mixError_eq, if_neg (not_not.mpr hcount), if_neg hmax.not_gt, if_pos hdepth])
  case width =>
    exact exec_mix_rejected (c := .fmtWidth) hp
      (by rw [s.mixError_eq, if_neg (not_not.mpr hcount), if_neg hmax.not_gt, if_neg (not_not.mpr hdepth),
        if_pos hwidth])
  case channels =>
    exact exec_mix_rejected (c := .fmtChannels) hp
      (by rw [s.mixError_eq, if_neg (not_not.mpr hcount), if_neg hmax.not_gt, if_neg (not_not.mpr hdepth),
        if_neg (not_not.mpr hwidth), if_pos hchannels])
  case alloc =>
    exact exec_mix_rejected (c := .alloc) hp
      (by rw [s.mixError_eq, if_neg (not_not.mpr hcount), if_neg hmax.not_gt, if_neg (not_not.mpr hdepth),
        if_neg (not_not.mpr hwidth), if_neg hchannels, if_pos ⟨hpos, hout⟩])
  case short =>
    have hcheck : s.checkBuffers = some (.argBufShort, i) := by
      rw [State.checkBuffers, State.firstSlot_of_first s.bufShort_iff hi hshort hfirst]
    exact exec_mix_of_checkBuffers hp hf hcheck
  case outside =>
    have hcheck : s.checkBuffers = some (.argBufRange, i) := by
      rw [State.checkBuffers, State.firstSlot_of_none s.bufShort_iff hlong,
        State.firstSlot_of_first s.bufOutside_iff hi houtside hfirst]
    exact exec_mix_of_checkBuffers hp hf hcheck
  case overlaps =>
    have hcheck : s.checkBuffers = some (.argOverlap, i) := by
      rw [State.checkBuffers, State.firstSlot_of_none s.bufShort_iff hlong,
        State.firstSlot_of_none s.bufOutside_iff hinside,
        State.firstSlot_of_first s.bufOverlaps_iff hi hoverlaps hfirst]
    exact exec_mix_of_checkBuffers hp hf hcheck

end Sys2Proof.Machine
end

section
/-! A run left alone, told step by step: where it stands, its tail writes, its finish, and that its steps end in
the whole MIX of the state that issued it (43_mixer R165, R172 to R179, 70_reset_and_hazards R276). -/

namespace Sys2Proof.Machine

/-! ## Where a run stands -/

section
variable {s : State} (hs : s.Inv) (hb : s.phase ≠ .idle)
include hs hb

/-- Past REQ no whole sample is left. -/
theorem State.Inv.not_sample_at_req (hpos : s.pos.toNat = s.req) : ¬ s.pos.toNat + s.bs ≤ s.len := by
  intro hle
  have hbs := hs.bs_pos hb
  have hreq := hs.sample_le_req hb hle
  omega

/-- Where a run stands is told by POS and the bytes written past it (43_mixer R172, R176). -/
theorem State.Inv.nextPhase_eq :
    s.nextPhase =
      if s.pos.toNat + s.bs ≤ s.len then .sample
      else if s.pos.toNat + s.beat < s.len then .tail else .finish := by
  have hreq := hs.not_sample_at_req hb
  obtain ⟨-, -, -, -, -, -, -, -, htail, hfinish⟩ := hs
  simp only [State.nextPhase, State.hasSample, State.hasTail, decide_eq_true_eq]
  cases hp : s.phase with
  | idle => exact absurd hp hb
  | sample => rfl
  | tail => rw [if_neg (hreq (htail hp).1)]
  | finish =>
    obtain ⟨hpos, hlen⟩ := hfinish hp
    rw [if_neg (hreq hpos), if_neg (by omega)]

end

/-! ## Tail writes and the finish (43_mixer R176, R178) -/

section
variable {s : State}

theorem State.Inv.runStep_tail (hs : s.Inv) (hn : s.nextPhase = .tail) :
    s.runStep = .next (State.endTail (s.advance.storeOutput s.outAddr [0x00])) := by
  obtain ⟨hb, hpos, hlt⟩ := hs.tail_ok hn
  rw [s.runStep_eq.2.1 hn]
  exact if_pos (hs.inDmem_outAddr (n := 1) hb (by omega))

/-- The end of a tail write, with PHASE spelled out. -/
theorem State.endTail_eq {u : State} (hp : u.phase = .tail) :
    State.endTail u =
      { u with
        beat := u.beat + 1
        phase := if u.pos.toNat + u.beat + 1 < u.len then .tail else .finish } := by
  have hphase : ({ u with beat := u.beat + 1 } : State).nextPhase =
      if u.pos.toNat + u.beat + 1 < u.len then .tail else .finish := by
    simp only [State.nextPhase, hp, State.hasTail, decide_eq_true_eq]
    rfl
  exact congrArg (fun p => { u with beat := u.beat + 1, phase := p }) hphase

theorem State.runStep_finish (hn : s.nextPhase = .finish) : s.runStep = .next s.finishRun := s.runStep_eq.2.2 hn

end

/-! ## A run that is left alone (43_mixer R179) -/

/-- u stands between two steps of the run that a MIX issued in s has started, and nothing else has happened. -/
structure State.LeftAlone (s u : State) : Prop where
  mixing : s.Mixing u
  kept :
    u =
      { s.accept.acceptMix with
        mem := u.mem, work := u.work, pos := u.pos, phase := u.phase, beat := u.beat }

/-- How many steps the run issued in s still takes in u: whole samples, tail bytes and the finish (70 R276). -/
def State.stepsLeft (s u : State) : Nat :=
  (s.req - u.pos.toNat) / s.bs + (s.len - s.req - u.beat) + 1

theorem State.Inv.leftAlone_start {s : State} (hs : s.Inv) (hp : s.phase = .idle) (hok : s.mixError = none) :
    s.LeftAlone s.accept.acceptMix := ⟨hs.mixing_start hp hok s.inputs, rfl⟩

/-- A run takes as many steps as 70 R276 counts. -/
theorem State.stepsLeft_start {s : State} (hbs : 0 < s.bs) : s.stepsLeft s.accept.acceptMix = s.runLength := by
  have hreq : s.req / s.bs = s.len / s.bs := Nat.mul_div_cancel _ hbs
  have htail : s.len - s.req = s.len % s.bs := by
    have hmod := Nat.div_add_mod' s.len s.bs
    rw [State.req]
    omega
  change (s.req - 0) / s.bs + (s.len - s.req - 0) + 1 = s.runLength
  rw [Nat.sub_zero, Nat.sub_zero, hreq, htail, State.runLength]

/-- A run of k + 1 steps from the outcome of its first. -/
theorem run_succ_of_step {k : Nat} {u v : Sys2Proof.core.State} (h : step u = .next v) :
    Sys2Proof.core.run (k + 1) u = Sys2Proof.core.run k v := by
  have h' : Sys2Proof.core.step u = .next v := h
  conv_lhs => rw [Host.Core.run, h']

namespace State.LeftAlone

variable {s u : State}

theorem slots_eq (h : s.LeftAlone u) : u.slots = s.slots := by rw [h.kept]; rfl

theorem inputs_eq (h : s.LeftAlone u) : u.inputs = s.inputs := by rw [h.kept]; rfl

theorem held_eq (h : s.LeftAlone u) : u.held = [] := by rw [h.kept]; rfl

/-- Between two steps no byte of a sample is written yet. -/
theorem beat_eq_zero (h : s.LeftAlone u) (hn : u.nextPhase = .sample) : u.beat = 0 := by
  by_contra hb
  have hlen := h.mixing.inv.length_loads hn (.inr ⟨hb, rfl⟩)
  obtain ⟨-, -, hlt⟩ := h.mixing.inv.sample_ok hn
  rw [h.held_eq, List.length_nil] at hlen
  omega

/-- A sample step moves POS by one sample (43_mixer R172). -/
theorem sampleStep (h : s.LeftAlone u) (hn : u.nextPhase = .sample) :
    ∃ v, u.runStep = .next v ∧ s.LeftAlone v ∧ s.stepsLeft u = s.stepsLeft v + 1 := by
  have hinv := h.mixing.inv
  have hl := hinv.loads hn
  have hstep := hinv.runStep_sample hn hl
  have hnext := h.mixing.of_sample hn hl (hinv.runStep hstep)
  rw [State.storeOutput_clean h.mixing.clean] at hstep hnext
  refine ⟨_, hstep, ⟨hnext, ?kept⟩, ?steps⟩
  case kept =>
    rw [h.kept]
    rfl
  case steps =>
    obtain ⟨-, hle, -⟩ := hinv.sample_ok hn
    have hreq := hinv.sample_le_req h.mixing.busy hle
    have hpos := State.toNat_pos_add_bs hle
    rw [h.mixing.bs_eq] at hreq hpos
    rw [h.mixing.req_eq] at hreq
    have hdiv : (s.req - u.pos.toNat) / s.bs = (s.req - (u.pos.toNat + s.bs)) / s.bs + 1 := by
      rw [← Nat.add_div_right _ h.mixing.bs_pos]
      congr 1
      omega
    change _ = (s.req - (BitVec.ofNat 32 (u.pos.toNat + u.bs)).toNat) / s.bs + (s.len - s.req - 0) + 1 + 1
    rw [h.mixing.bs_eq, hpos, State.stepsLeft, hdiv, h.beat_eq_zero hn]
    omega

/-- A tail write moves the count of tail bytes by one (43_mixer R176). -/
theorem tailStep (h : s.LeftAlone u) (hn : u.nextPhase = .tail) :
    ∃ v, u.runStep = .next v ∧ s.LeftAlone v ∧ s.stepsLeft u = s.stepsLeft v + 1 := by
  have hinv := h.mixing.inv
  have hstep := hinv.runStep_tail hn
  have hnext := h.mixing.of_tail hn (hinv.runStep hstep)
  rw [State.storeOutput_clean (s := u.advance) h.mixing.clean] at hstep hnext
  refine ⟨_, hstep, ⟨hnext, ?kept⟩, ?steps⟩
  case kept =>
    rw [h.kept]
    rfl
  case steps =>
    obtain ⟨-, hpos, hlt⟩ := hinv.tail_ok hn
    rw [h.mixing.req_eq] at hpos hlt
    rw [h.mixing.len_eq] at hlt
    change (s.req - u.pos.toNat) / s.bs + (s.len - s.req - u.beat) + 1 =
      (s.req - u.pos.toNat) / s.bs + (s.len - s.req - (u.beat + 1)) + 1 + 1
    omega

/-- The finish comes when one step is left. -/
theorem stepsLeft_of_finish (h : s.LeftAlone u) (hn : u.nextPhase = .finish) : s.stepsLeft u = 1 := by
  obtain ⟨hpos, hlen⟩ := h.mixing.inv.finish_ok hn
  rw [h.mixing.req_eq] at hpos hlen
  rw [h.mixing.len_eq] at hlen
  rw [State.stepsLeft, hpos, Nat.sub_self, Nat.zero_div]
  omega

/-- The records that a run leaves in WORK below N are those after all its frames (43_mixer R177). -/
theorem work_of_finish (h : s.LeftAlone u) (hn : u.nextPhase = .finish) : u.work = s.workAfter s.frames := by
  obtain ⟨hpos, -⟩ := h.mixing.inv.finish_ok hn
  rw [h.mixing.work, hpos, h.mixing.req_eq, State.req, Nat.mul_div_cancel _ h.mixing.bs_pos]
  rfl

/-- The finish ends in the whole MIX (43_mixer R178, R179). -/
theorem finishRun_eq (h : s.LeftAlone u) (hn : u.nextPhase = .finish) : u.finishRun = s.mixWhole := by
  obtain ⟨hpos, hlen⟩ := h.mixing.inv.finish_ok hn
  have hwork := h.work_of_finish hn
  have hposw : u.pos = BitVec.ofNat 32 s.req := by
    rw [← h.mixing.req_eq, ← hpos, BitVec.ofNat_toNat, BitVec.setWidth_eq]
  have hmem : u.mem = Memory.writeBytes s.mem s.outBase.toNat s.output := by
    rw [h.mixing.mem, hpos, hlen, h.mixing.len_eq, ← s.length_output, List.take_length]
  have hslots : u.finishRun.slots = s.mixWhole.slots := by
    rw [State.finishRun_slots, h.slots_eq, h.mixing.count_eq]
    refine congrArg (s.slots.mapIdx ·) (funext fun i => funext fun x => ?_)
    split_ifs with hi
    · rw [State.workAt, hwork, State.getD_workAfter hi (hi.trans_le h.mixing.count_le_work)]
    · rfl
  have hkept : u.finishRun =
      { s.mixWhole with mem := u.mem, work := u.work, pos := u.pos, slots := u.finishRun.slots } := by
    rw [h.kept]
    rfl
  rw [hkept, hmem, hwork, hposw, hslots]
  rfl

end State.LeftAlone

/-- The steps that a run left alone still takes end in the whole MIX of the state that issued it. -/
theorem State.LeftAlone.run_eq {s u : State} {k : Nat} (h : s.LeftAlone u) (hi : s.inputs = [])
    (hk : s.stepsLeft u = k) : Sys2Proof.core.run k u = .next s.mixWhole := by
  induction k generalizing u with
  | zero => exact absurd hk (Nat.succ_ne_zero _)
  | succ k ih =>
    have hstep : step u = u.runStep := step_empty (h.inputs_eq.trans hi)
    have hrest : (∃ v, u.runStep = .next v ∧ s.LeftAlone v ∧ s.stepsLeft u = s.stepsLeft v + 1) →
        Sys2Proof.core.run (k + 1) u = .next s.mixWhole := by
      rintro ⟨v, hv, hleft, hcount⟩
      rw [run_succ_of_step (hstep.trans hv)]
      exact ih hleft (by omega)
    cases hn : u.nextPhase with
    | idle => exact absurd (u.nextPhase_eq_idle_iff.mp hn) h.mixing.busy
    | sample => exact hrest (h.sampleStep hn)
    | tail => exact hrest (h.tailStep hn)
    | finish =>
      obtain rfl : k = 0 := by
        have hone := h.stepsLeft_of_finish hn
        omega
      rw [run_succ_of_step (hstep.trans (State.runStep_finish hn)), h.finishRun_eq hn]
      rfl

/-- An accepted MIX that is left alone ends in the whole MIX of the state that issued it (43_mixer R179). -/
theorem State.Inv.run_mix {s : State} (hs : s.Inv) (hp : s.phase = .idle) (hi : s.inputs = [])
    (hok : s.AcceptsMix) :
    ∃ t, exec .mix s = .next t ∧ Sys2Proof.core.run s.runLength t = .next s.mixWhole := by
  have hacc := s.mixError_eq_none_iff_acceptsMix.mpr hok
  have hstart := hs.leftAlone_start hp hacc
  exact ⟨_, exec_mix_accepted hp hacc,
    hstart.run_eq hi (State.stepsLeft_start hstart.mixing.bs_pos)⟩

end Sys2Proof.Machine
end

section
/-! The statements about the tail, the finish and the whole of a run, settled. -/

namespace Sys2Proof.Machine

/-- Settles O34: with no sample left and a byte to write the run stands in its tail. -/
theorem tailWritesZeros : Obligations.TailWritesZeros := by
  intro s hs hb hclean hnosample hmore
  have hn : s.nextPhase = .tail :=
    (hs.nextPhase_eq hb).trans ((if_neg hnosample.not_ge).trans (if_pos hmore))
  rw [hs.runStep_tail hn, State.storeOutput_clean (s := s.advance) hclean, State.endTail_eq hn]
  rfl

/-- Settles O35: with every byte written the run stands at its finish. -/
theorem finishWritesBack : Obligations.FinishWritesBack := by
  intro s hs hb hnosample hwritten
  have hn : s.nextPhase = .finish :=
    (hs.nextPhase_eq hb).trans ((if_neg hnosample.not_ge).trans (if_neg hwritten.not_lt))
  exact State.runStep_finish hn

/-- Settles O37: every step of the run brings it one step nearer to its finish, which ends in `mixWhole`. -/
theorem runRefinesWholeMix : Obligations.RunRefinesWholeMix := fun _ => State.Inv.run_mix

end Sys2Proof.Machine
end

section
/-! The output of a whole MIX over silent sources, and over one source at volume 1.0 (43_mixer R180, R181). -/

namespace Sys2Proof.Machine

/-! ## The bytes a whole MIX leaves in DMEM -/

/-- Bytes of a list written to DMEM read back as they stand in the list. -/
theorem Memory.readBytes_of_isPrefix {m : Memory} (hm : Memory.wf m = true) {a p : Nat} {l bytes : List Byte}
    (h : bytes <+: l.drop p) :
    Memory.readBytes (Memory.writeBytes m a l) (a + p) bytes.length = bytes := by
  refine List.ext_getElem (Memory.length_readBytes ..) fun k hk hk' => ?_
  have hlen := h.length_le
  rw [List.length_drop] at hlen
  rw [Memory.getElem_readBytes, Nat.add_assoc, Memory.read_writeBytes_inside hm (by omega), h.getElem hk',
    List.getElem_drop]

section
variable {s : State}

/-- After a whole MIX, output sample j stands at offset j * bs. -/
theorem State.readBytes_mixWhole (hm : Memory.wf s.mem = true) {j : Nat} (hj : j < s.len / s.bs) :
    Memory.readBytes s.mixWhole.mem (s.outBase.toNat + j * s.bs) s.bs = s.outputSample j := by
  have hread := Memory.readBytes_of_isPrefix hm (a := s.outBase.toNat) (s.outputSample_isPrefix hj)
  rwa [s.length_outputSample] at hread

/-- A record that is INACTIVE at acceptance stays as it is for the whole run (42_crossfade R141). -/
theorem State.recordAfter_inactive {i : Nat} (h : (s.slot i).tlen.toInt < 0) (frames : Nat) :
    s.recordAfter frames i = (s.slot i).record :=
  Function.iterate_fixed (crossfade_inactive (r := (s.slot i).record) h) frames

/-- The bytes of source i's sample j. -/
def State.inputCode (s : State) (j i : Nat) : List Byte :=
  s.mem.readBytes ((s.slot i).bufBase.toNat + j * s.bs) s.bs

@[simp] theorem State.length_inputCode (s : State) (j i : Nat) : (s.inputCode j i).length = s.bs :=
  Memory.length_readBytes ..

/-- The value of a source with an INACTIVE record is scaled by its VOLUME (43_mixer R163). -/
theorem State.inputValue_inactive {i : Nat} (h : (s.slot i).tlen.toInt < 0) (j : Nat) :
    s.inputValue j i = fmul (decodeSample (s.inputCode j i) s.bs) (s.slot i).volume := by
  rw [State.inputValue, State.recordAfter_inactive h]
  rfl

/-- The legal widths are 1 to 4 bytes. -/
theorem State.FormatOk.bs_bounds (h : s.FormatOk) : 1 ≤ s.bs ∧ s.bs ≤ 4 := by
  obtain ⟨-, -, -, hwidth, -⟩ := h
  exact width_bounds hwidth

end

/-- Every sample decodes to a finite value (40_codec R102). -/
theorem finite_decodeSample {bytes : List Byte} {w : Nat} (hlen : bytes.length = w) (h1 : 1 ≤ w) (h4 : w ≤ 4) :
    FiniteF64 (decodeSample bytes w) := by
  have hlt : fromLE bytes < 2 ^ (8 * w) := hlen ▸ fromLE_lt bytes
  have hwidth := two_pow_width h1
  have hmax := maxMag_lt h4
  rw [decodeSample_eq, sext_code h1 hlt]
  exact finite_decodeInt (by split_ifs <;> omega) h1 h4

/-- A zero encodes to the zero code (40_codec R104). -/
theorem encodeSample_of_fUnits_zero {v : F64} {w : Nat} (h4 : w ≤ 4) (hv : FiniteF64 v) (h : fUnits v = 0) :
    encodeSample v w = List.replicate w 0 := encodeSample_of_zero (encodeInt_of_zero h4 hv h)

/-! ## Silent sources (43_mixer R180) -/

section
variable {s : State} (hf : s.FormatOk)
  (hsilent : ∀ i < s.nbuf.toNat, (s.slot i).volume = 0 ∧ (s.slot i).tlen.toInt < 0)
include hf hsilent

/-- Silent sources mix to the zero code. -/
theorem State.outputSample_silent (j : Nat) : s.outputSample j = List.replicate s.bs 0 := by
  obtain ⟨h1, h4⟩ := hf.bs_bounds
  have hzeros : ∀ x ∈ (List.range s.count).map (s.inputValue j), ∃ neg, x = fZero neg := by
    simp only [List.mem_map, List.mem_range]
    rintro _ ⟨i, hi, rfl⟩
    obtain ⟨hvol, htlen⟩ := hsilent i hi
    have hfin := finite_decodeSample (s.length_inputCode j i) h1 h4
    exact ⟨_, by rw [State.inputValue_inactive htlen, hvol, ← fZero_false, fmul_fZero hfin]⟩
  rw [State.outputSample, mixFold_of_zeros hzeros]
  exact encodeSample_of_fUnits_zero h4 (finite_fZero _) (fUnits_fZero _)

/-- The whole output is zeros. -/
theorem State.output_silent : ∀ b ∈ s.output, b = 0x00 := by
  intro b hb
  rw [State.output, List.mem_append, List.mem_flatMap] at hb
  obtain ⟨j, -, hj⟩ | htail := hb
  · rw [State.outputSample_silent hf hsilent] at hj
    exact List.eq_of_mem_replicate hj
  · exact List.eq_of_mem_replicate htail

end

/-! ## One source at volume 1.0 (43_mixer R181) -/

/-- Mixed with silence a finite value encodes as it would alone: where the patterns differ, both are zeros. -/
theorem encodeSample_mixPair_fZero {x : F64} (hx : FiniteF64 x) {w : Nat} (h4 : w ≤ 4) :
    encodeSample (mixPair (fZero false) x) w = encodeSample x w := by
  rw [mixPair_fZero hx, fadd_fZero hx]
  by_cases h : fInt x = 0
  · rw [if_pos h, encodeSample_of_fUnits_zero h4 (finite_fZero _) (fUnits_fZero _),
      encodeSample_of_fUnits_zero h4 hx (fInt_eq_zero_iff.mp h)]
  · rw [if_neg h]

/-- A single source at volume 1.0 is decoded and encoded again. -/
theorem State.outputSample_single {s : State} (hf : s.FormatOk) (hn : s.nbuf = 1)
    (hvol : (s.slot 0).volume = fOne) (htlen : (s.slot 0).tlen.toInt < 0) (j : Nat) :
    s.outputSample j = encodeSample (decodeSample (s.inputCode j 0) s.bs) s.bs := by
  obtain ⟨h1, h4⟩ := hf.bs_bounds
  have hfin := finite_decodeSample (s.length_inputCode j 0) h1 h4
  have hvalue : s.inputValue j 0 = decodeSample (s.inputCode j 0) s.bs := by
    rw [State.inputValue_inactive htlen, hvol]
    refine fmul_fOne fun hnan => ?_
    rw [fIsNaN_of_finite hfin] at hnan
    cases hnan
  have hcount : s.count = 1 := by rw [State.count, hn]; rfl
  rw [State.outputSample, hcount, List.range_one, List.map_singleton, mixFold_singleton, hvalue,
    encodeSample_mixPair_fZero hfin h4]

end Sys2Proof.Machine
end

section
/-! The statements about the output of silent sources and of a single one, settled. -/

namespace Sys2Proof.Machine

/-- Settles O41: the run ends in the whole MIX, whose output is zeros. -/
theorem silenceGivesZeros : Obligations.SilenceGivesZeros := by
  intro s hs hp hi hok hsilent
  obtain ⟨t, hexec, hrun⟩ := hs.run_mix hp hi hok
  obtain ⟨-, -, ⟨hm, -⟩, -⟩ := hs
  refine ⟨t, s.mixWhole, hexec, hrun, rfl, rfl, fun k hk => ?_⟩
  have hlen : k < s.output.length := hk.trans_eq s.length_output.symm
  exact (Memory.read_writeBytes_inside hm hlen).trans
    (State.output_silent hok.1 hsilent _ (List.getElem_mem hlen))

/-- Settles O42: the run ends in the whole MIX, whose samples are the source's decoded and encoded again. -/
theorem singleSourcePassesThrough : Obligations.SingleSourcePassesThrough := by
  intro s hs hp hi hok hn hvol htlen
  obtain ⟨t, hexec, hrun⟩ := hs.run_mix hp hi hok
  obtain ⟨-, -, ⟨hm, -⟩, -⟩ := hs
  obtain ⟨hf, -⟩ := hok
  obtain ⟨h1, h4⟩ := hf.bs_bounds
  refine ⟨t, s.mixWhole, hexec, hrun, rfl, rfl, fun j hj code hcode => ?_⟩
  obtain rfl : code = s.inputCode j 0 := hcode
  rw [State.readBytes_mixWhole hm hj, State.outputSample_single hf hn hvol htlen]
  exact codesSurviveTheRoundTrip s.bs _ h1 h4 (s.length_inputCode j 0)

end Sys2Proof.Machine
end

section
/-! What a CMD write does while BUSY, and what NOP does to STATUS (44_control R201, R202, R205). -/

namespace Sys2Proof.Machine

/-- While BUSY no word written to CMD is decoded (44_control R202). -/
theorem State.writeCmd_busy {s : State} (hp : s.phase ≠ .idle) (v : Word) :
    s.writeCmd v = .next s.discarded := if_pos ((State.busy_iff s).mpr hp)

theorem opcodeRow_nop {v : Word} (h : v.toNat % 2 ^ 8 = 0x00) : opcodeRow v = some (.c0, .nop) := by
  rw [opcodeRow, wordOp_eq, h]; rfl

theorem exec_nop {s : State} (hp : s.phase = .idle) : exec .nop s = .next s.completed := by
  rw [exec_eq_issue, State.issue_idle hp]
  rfl

/-- Once a command has completed with no error, STATUS holds DONE and the DROPPED it held before (44_control
R201, R203). -/
theorem State.toNat_statusWord_completed {s : State} (hp : s.phase = .idle) :
    s.completed.statusWord.toNat = 2 + if s.dropped then 8 else 0 := by
  have hbusy : s.completed.busy = false := (State.busy_eq_false_iff s.completed).mpr hp
  rw [State.toNat_statusWord, hbusy]
  rfl

/-- DROPPED is bit 3 of STATUS (10_state R25). -/
theorem State.dropped_iff (s : State) : s.dropped = true ↔ s.statusWord.toNat / 2 ^ 3 % 2 = 1 := by
  have hlow : (if s.busy then 1 else 0) + (if s.done then 2 else 0) + (if s.err then 4 else 0) < 2 ^ 3 := by
    split_ifs <;> decide
  rw [State.toNat_statusWord]
  by_cases hd : s.dropped = true
  · rw [if_pos hd]
    exact iff_of_true hd (by omega)
  · rw [if_neg hd]
    exact iff_of_false hd (by omega)

end Sys2Proof.Machine
end

section
/-! The statements about NOP and about commands while BUSY, settled. -/

namespace Sys2Proof.Machine

/-- Settles O6: NOP has one word, and its completion leaves of STATUS only DROPPED, which is 0 in 0x504. -/
theorem nopOnlyUpdatesStatus : Obligations.NopOnlyUpdatesStatus := by
  intro s
  refine ⟨exec_nop, fun hp => exec_busy hp _,
    fun v hp hop => (State.writeCmd_bare hp hop (opcodeRow_nop hop)).trans ?word, fun hp hstatus => ?status⟩
  case word =>
    rw [exec_nop hp, ← apply_ite]
    rfl
  case status =>
    have hdropped : s.dropped = false := by
      rw [← Bool.not_eq_true, State.dropped_iff, hstatus]
      decide
    apply BitVec.eq_of_toNat_eq
    rw [State.toNat_statusWord_completed hp, hdropped]
    rfl

/-- Settles O17: the step takes the write off the list, and the write is dropped. -/
theorem commandsWhileBusyAreDropped : Obligations.CommandsWhileBusyAreDropped := by
  intro s v rest hp hs
  calc step s = { s with inputs := rest }.writeCmd v := step_event hs
    _ = .next { s with inputs := rest, dropped := true } := State.writeCmd_busy (s := { s with inputs := rest }) hp v

end Sys2Proof.Machine
end

section
/-! What a command that leaves ERR set has done: error entry, with a code of its own (60_exceptions R222, R223,
R229). -/

namespace Sys2Proof.Machine

/-! ## Error entry is the only way to ERR (60_exceptions R229, R230) -/

/-- While idle acceptance clears ERR, so a command that leaves ERR set has done nothing but error entry. -/
theorem CommandEffect.eq_raise_of_err {s t : State} {i : Instr} (h : CommandEffect s i t)
    (hp : s.phase = .idle) (herr : t.err = true) : ∃ c slot, s.Reports c slot ∧ t = s.accept.raise c slot := by
  cases h with
  | dropped hb => exact absurd hp hb
  | rejected _ hreport => exact ⟨_, _, hreport, rfl⟩
  | nop | result | xstep | mix => cases herr

/-- While idle a command's successor is what its rule makes of the accepted state. -/
theorem eq_commandRule_of_exec {s t : State} {i : Instr} (hp : s.phase = .idle) (h : exec i s = .next t) :
    t = commandRule i s.accept := by
  rw [exec_eq_issue, State.issue_idle hp] at h
  cases h
  rfl

/-! ## The codes of a command (60_exceptions R222, R223) -/

/-- A rule that raises one error unless its operand is legal reports that error's code, and no slot. -/
theorem reports_of_guarded_rule {p : Prop} [Decidable p] {a u : State} {c : ErrCode} (hu : u.err = false)
    (herr : (if p then u else a.raise c 0).err = true) :
    (if p then u else a.raise c 0).errcode = c.code ∧ (if p then u else a.raise c 0).errslot = 0 := by
  split_ifs at herr ⊢
  · exact absurd herr (Bool.eq_false_iff.mp hu)
  · exact ⟨rfl, rfl⟩

/-- Validation never reports ILLEGAL_CMD: its codes start at ARG_COUNT (43_mixer R167). -/
theorem State.two_le_code_of_mixError {s : State} {c : ErrCode} {slot : Nat} (h : s.mixError = some (c, slot)) :
    0x02 ≤ c.code.toNat := by
  unfold State.mixError at h
  split_ifs at h
  case neg =>
    obtain ⟨-, hcode⟩ := State.checkBuffers_some h
    exact le_trans (by decide) hcode
  all_goals cases h; decide

/-- An idle MIX that leaves ERR set has failed its validation. -/
theorem exec_mix_err {s t : State} (hp : s.phase = .idle) (h : exec .mix s = .next t) (herr : t.err = true) :
    ∃ c slot, s.mixError = some (c, slot) ∧ t = s.rejected c.code slot := by
  cases hm : s.mixError with
  | none =>
    cases h.symm.trans (exec_mix_accepted hp hm)
    cases herr
  | some report =>
    cases h.symm.trans (exec_mix_rejected hp hm)
    exact ⟨_, _, rfl, rfl⟩

end Sys2Proof.Machine
end

section
/-! The statements about rejected commands, settled. -/

namespace Sys2Proof.Machine

/-- Settles O15: a word that spells no command is only rejected, and a command that leaves ERR set has only
entered the error. -/
theorem rejectedCommandsChangeOnlyStatus : Obligations.RejectedCommandsChangeOnlyStatus := by
  intro s t v hp h herr
  obtain ⟨hbusy, -⟩ | ⟨-, i, -, hexec⟩ | ⟨-, e, -, rfl⟩ := State.writeCmd_next h
  · exact absurd hp hbusy
  · obtain ⟨c, slot, -, rfl⟩ := (commandEffect_of_exec hexec).eq_raise_of_err hp herr
    rfl
  · rfl

/-- Settles O16, by the rule of each command; MIX reports what its validation finds. -/
theorem commandsReportOnlyTheirCodes : Obligations.CommandsReportOnlyTheirCodes := by
  intro s t i hp h herr
  have ht := eq_commandRule_of_exec hp h
  cases i with
  | nop | ease | mix2 => subst ht; cases herr
  | lutrd | xstep | dec | enc => subst ht; exact reports_of_guarded_rule rfl herr
  | mix =>
    obtain ⟨c, slot, hm, rfl⟩ := exec_mix_err hp h herr
    obtain ⟨hne, hslot⟩ := State.mixError_some hm
    obtain ⟨-, hmax⟩ := ErrCode.code_bounds hne
    refine ⟨State.two_le_code_of_mixError hm, hmax, fun hs => ?_⟩
    obtain rfl | ⟨hcode, -⟩ := hslot
    · exact absurd rfl hs
    · exact hcode

end Sys2Proof.Machine
end

section
/-! What POS can do in a step of a run that goes on (70 R278). -/

namespace Sys2Proof.Machine

/-- POS of t is POS of s, or one sample further. -/
abbrev State.PosStaysOrAdvances (s t : State) : Prop := t.pos = s.pos ∨ t.pos.toNat = s.pos.toNat + s.bs

section
variable {s t : State}

/-- Of the turns of a run only the end of a sample moves POS (43_mixer R172, R174). -/
theorem Turn.posStaysOrAdvances (h : Turn s t) (hs : s.Inv) : s.PosStaysOrAdvances t := by
  cases h with
  | idle | finish => exact .inl rfl
  | byte | tail =>
    rw [State.storeOutput_eq]
    exact .inl rfl
  | sample hn =>
    obtain ⟨-, hle, -⟩ := hs.sample_ok hn
    rw [State.storeOutput_eq]
    exact .inr (State.toNat_pos_add_bs hle)

/-- A quiet event moves POS of a run as a turn of the sequencer does. -/
theorem QuietEffect.posStaysOrAdvances {e : Event} (h : QuietEffect s e t) (hs : s.Inv) (hb : s.phase ≠ .idle) :
    s.PosStaysOrAdvances t := by
  cases h with
  | port hk => rw [hk]; exact .inl rfl
  | put hidle => exact absurd hidle hb
  | turn hturn => exact hturn.posStaysOrAdvances hs
  | @wait u hturn =>
    have hmoved : (s.readReg statusPort).PosStaysOrAdvances u := hturn.posStaysOrAdvances (hs.readReg statusPort)
    rw [State.readReg_eq] at hmoved
    exact hmoved

/-- A register write leaves POS of a run alone (10_state R36, R38). -/
theorem State.writeReg_pos {word : BitVec 9} {v : Word} (hb : s.phase ≠ .idle)
    (h : s.writeReg word v = .next t) : t.pos = s.pos := by
  by_cases hw : word = cmdPort
  · subst hw
    rw [State.writeReg_cmd rfl, State.writeCmd_busy hb] at h
    cases h
    rfl
  · obtain rfl | rfl | rfl | ⟨hp, -⟩ := State.writeReg_quiet hw h
    exacts [rfl, rfl, rfl, absurd hp hb]

/-- No event that leaves a run in progress moves POS otherwise. -/
theorem State.Inv.perform_posStaysOrAdvances {e : Event} (hs : s.Inv) (hb : s.phase ≠ .idle)
    (h : s.perform e = .next t) (ht : t.phase ≠ .idle) : s.PosStaysOrAdvances t := by
  by_cases hq : e.quiet = true
  · exact (quietEffect_of_perform hq h).posStaysOrAdvances hs hb
  · cases e with
    | reg a =>
      cases a with
      | write word v => exact .inl (State.writeReg_pos hb h)
      | read word => exact absurd rfl hq
    | memWrite a bytes =>
      cases h
      rw [State.hostWrite, State.hostStore_eq]
      exact .inl rfl
    | reset lost => cases h; exact absurd rfl ht
    | memRead _ _ | wait | runStep | runByte => exact absurd rfl hq

theorem step_posStaysOrAdvances (hs : s.Inv) (hb : s.phase ≠ .idle) (h : step s = .next t)
    (ht : t.phase ≠ .idle) : s.PosStaysOrAdvances t := by
  cases hi : s.inputs with
  | nil =>
    rw [step_empty hi] at h
    exact (turn_of_runStep h).posStaysOrAdvances hs
  | cons e rest =>
    rw [step_event hi] at h
    exact State.Inv.perform_posStaysOrAdvances (s := { s with inputs := rest }) hs hb h ht

/-- REQ of a run is the same all through it (10_state R38, 20_memory R66). -/
theorem step_req (hb : s.phase ≠ .idle) (h : step s = .next t) (ht : t.phase ≠ .idle) : t.req = s.req :=
  congrArg (fun r => r.1.toNat / (r.2.1.toNat / 8) * (r.2.1.toNat / 8)) (step_runRegisters hb h ht)

end

end Sys2Proof.Machine
end

section
/-! A run step does not look at DMEM, at the bytes held or at the record of a broken duty, but for what it
stores (70_reset_and_hazards R266): with others of these it gives the same outcome but for these. -/

namespace Sys2Proof.Machine

/-- The state with another DMEM, other bytes held and another record of the breach. -/
def State.withData (s : State) (m : Memory) (held : List Byte) (b : Bool) (d : Nat) : State :=
  { s with mem := m, held := held, tainted := b, draws := d }

/-- The second outcome is the first but for DMEM, the bytes held, of which there are as many, and the record
of the breach. -/
def SameButData (o o' : Host.Outcome State Fault Refusal) : Prop :=
  ∀ t, o = .next t → ∃ m held b d, o' = .next (t.withData m held b d) ∧ held.length = t.held.length

theorem SameButData.next (t : State) (m : Memory) {held : List Byte} (b : Bool) (d : Nat)
    (h : held.length = t.held.length) : SameButData (.next t) (.next (t.withData m held b d)) := by
  rintro _ ⟨⟩
  exact ⟨m, held, b, d, rfl, h⟩

section
variable {s : State} {m : Memory} {held : List Byte} {b : Bool} {d : Nat}

/-- Whatever bytes are stored, a store changes only DMEM and the count of draws. -/
theorem State.storeOutput_withData (a : Nat) (bytes bytes' : List Byte) :
    ∃ m' d', (s.withData m held b d).storeOutput a bytes' =
      (s.storeOutput a bytes).withData m' held b d' := by
  refine ⟨((s.withData m held b d).storeOutput a bytes').mem,
    ((s.withData m held b d).storeOutput a bytes').draws, ?_⟩
  rw [State.storeOutput_eq s, State.storeOutput_eq (s.withData m held b d)]
  rfl

/-- Whether a run's store goes on depends only on how many bytes it stores. -/
theorem State.runStore_withData {bytes bytes' : List Byte} (hlen : bytes'.length = bytes.length)
    (hd : s.inDmem s.outAddr bytes.length = true) (k : State → State) :
    ∃ m' d', (s.withData m held b d).runStore bytes' k =
      .next (k ((s.storeOutput s.outAddr bytes).withData m' held b d')) := by
  obtain ⟨m', d', hstore⟩ := State.storeOutput_withData (s := s) (m := m) (held := held) (b := b) (d := d)
    s.outAddr bytes bytes'
  refine ⟨m', d', ?_⟩
  rw [← hstore]
  exact if_pos (hlen ▸ hd)

/-- As many bytes are loaded, whatever they are: whether the sources lie inside DMEM does not depend on what
it holds. -/
theorem State.Loads.withData {bytes : List Byte} (hl : s.Loads bytes) (hheld : held.length = s.held.length) :
    ∃ bytes', (s.withData m held b d).Loads bytes' ∧ bytes'.length = bytes.length := by
  obtain ⟨hb, hr, rfl⟩ | ⟨hb, rfl⟩ := hl
  · refine ⟨_, .inl ⟨hb, hr, rfl⟩, ?_⟩
    rw [State.length_sampleBytes, State.length_sampleBytes]
    rfl
  · exact ⟨held, .inr ⟨hb, rfl⟩, hheld⟩

variable (hheld : held.length = s.held.length)
include hheld

theorem State.sampleStep_withData : SameButData s.sampleStep (s.withData m held b d).sampleStep := by
  intro t ht
  obtain ⟨bytes, hl, hd, rfl⟩ := State.sampleStep_next ht
  obtain ⟨bytes', hl', hlen⟩ := State.Loads.withData (m := m) (b := b) (d := d) hl hheld
  obtain ⟨m', d', hrun⟩ := State.runStore_withData (m := m) (held := held) (b := b) (d := d) hlen hd
    (State.endSample s.crossfadePhase)
  exact ⟨m', [], b, d', (State.runLoad_of_loads hl' _).trans hrun, rfl⟩

theorem State.sampleByte_withData : SameButData s.sampleByte (s.withData m held b d).sampleByte := by
  intro t ht
  obtain ⟨hmore, bytes, hl, hd, rfl⟩ | ⟨hlast, hstep⟩ := State.sampleByte_next ht
  · obtain ⟨bytes', hl', hlen⟩ := State.Loads.withData (m := m) (b := b) (d := d) hl hheld
    have htake : (bytes'.take 1).length = (bytes.take 1).length := by simp [hlen]
    obtain ⟨m', d', hrun⟩ := State.runStore_withData (m := m) (held := held) (b := b) (d := d) htake hd
      (State.endByte (bytes'.drop 1))
    refine ⟨m', bytes'.drop 1, b, d',
      (if_pos hmore).trans ((State.runLoad_of_loads hl' _).trans hrun), ?_⟩
    simp [hlen]
  · obtain ⟨m', held', b', d', hnext, hlen⟩ := State.sampleStep_withData hheld t hstep
    exact ⟨m', held', b', d', (if_neg hlast).trans hnext, hlen⟩

theorem State.tailStep_withData : SameButData s.tailStep (s.withData m held b d).tailStep := by
  intro t ht
  rw [State.tailStep_eq] at ht ⊢
  obtain ⟨hd, rfl⟩ := State.runStore_next ht
  obtain ⟨m', d', hrun⟩ := State.runStore_withData (m := m) (held := held) (b := b) (d := d) rfl hd State.endTail
  refine ⟨m', held, b, d', hrun, ?_⟩
  rw [State.storeOutput_eq]
  exact hheld

theorem State.runStep_withData : SameButData s.runStep (s.withData m held b d).runStep := by
  obtain ⟨hsample, htail, hfinish⟩ := s.runStep_eq
  obtain ⟨hsample', htail', hfinish'⟩ := (s.withData m held b d).runStep_eq
  cases hn : s.nextPhase with
  | idle =>
    have hp := s.nextPhase_eq_idle_iff.mp hn
    rw [State.runStep_idle hp, State.runStep_idle (s := s.withData m held b d) hp]
    exact .next s m b d hheld
  | sample =>
    rw [hsample hn, hsample' hn]
    exact State.sampleStep_withData (s := s.advance) hheld
  | tail =>
    rw [htail hn, htail' hn]
    exact State.tailStep_withData (s := s.advance) hheld
  | finish =>
    rw [hfinish hn, hfinish' hn]
    exact .next s.finishRun m (held := []) false d rfl

theorem State.runByte_withData : SameButData s.runByte (s.withData m held b d).runByte := by
  obtain ⟨hsample, hother⟩ := s.runByte_eq
  obtain ⟨hsample', hother'⟩ := (s.withData m held b d).runByte_eq
  by_cases hn : s.nextPhase = .sample
  · rw [hsample hn, hsample' hn]
    exact State.sampleByte_withData (s := s.advance) hheld
  · rw [hother hn, hother' hn]
    exact State.runStep_withData hheld

end

end Sys2Proof.Machine
end

section
/-! What a broken duty leaves in DMEM (70_reset_and_hazards R266): the output windows of the duties broken, byte
by byte, and the bytes that a run so marked stores. -/

namespace Sys2Proof.Machine

/-! ## The duties a host write breaks -/

/-- A write breaks a duty exactly when it touches one of its windows. -/
theorem Duty.broken_iff (d : Duty) (a n : Nat) : d.broken ⟨a, n⟩ = true ↔ d.TouchedBy a n := by
  refine ⟨Duty.touchedBy_of_broken, ?_⟩
  rintro ⟨x, hlo, hhi, hx⟩
  have hw : Window.has ⟨a, n⟩ x = true := (Window.has_iff _ x).mpr ⟨hlo, hhi⟩
  rw [Duty.broken, Bool.or_eq_true, List.any_eq_true]
  obtain hout | ⟨v, hv, hin⟩ := hx
  · exact .inl (Window.meets_of_has hout hw)
  · exact .inr ⟨v, hv, Window.meets_of_has hin hw⟩

/-- A write breaks the run in progress exactly when it touches a window of its duty, the newest one. -/
theorem State.breaksRun_iff (s : State) (a n : Nat) :
    s.breaksRun ⟨a, n⟩ = true ↔ s.phase ≠ .idle ∧ ∃ d ∈ s.duties.head?, d.TouchedBy a n := by
  rw [State.breaksRun, Bool.and_eq_true, State.busy_iff, Option.any_eq_true]
  simp only [Duty.broken_iff, Option.mem_def]

/-! ## The output windows freed -/

section
variable {w : Window} {s : State} {d : Duty} {ds : List Duty} {x : Nat}

theorem State.breach_broken (h : d.broken w = true) : State.breach w s d = s.havoc d.out := if_pos h

/-- A duty broken frees its output window, with the draws it makes. -/
theorem State.read_breach_inside (hwf : Memory.wf s.mem = true) (h : d.broken w = true)
    (hx : d.out.has x = true) :
    ∃ n, s.draws ≤ n ∧ n < (State.breach w s d).draws ∧
      Memory.read (State.breach w s d).mem x = Config.freeByte n := by
  obtain ⟨hlo, hhi⟩ := (Window.has_iff _ x).mp hx
  have hread := State.read_freeBytes (s := s) hwf (a := d.out.base) (n := d.out.size) (k := x - d.out.base)
    (by omega)
  rw [Nat.add_sub_cancel' hlo] at hread
  rw [State.breach_broken h]
  exact ⟨_, Nat.le_add_right _ _, by rw [State.havoc_draws]; omega, hread⟩

/-- A duty leaves alone every byte outside the output window that its breach frees. -/
theorem State.read_breach_outside (h : d.broken w = true → d.out.has x = false) :
    Memory.read (State.breach w s d).mem x = Memory.read s.mem x := by
  by_cases hb : d.broken w = true
  · rw [State.breach_broken hb]
    have hout := h hb
    rw [← Bool.not_eq_true, Window.has_iff] at hout
    exact Memory.read_writeBytes_outside _ (by rw [State.length_freeBytes]; omega)
  · rw [State.breach, if_neg hb]

theorem State.draws_le_breach : s.draws ≤ (State.breach w s d).draws := by
  unfold State.breach
  split
  · exact Nat.le_add_right _ _
  · exact le_rfl

theorem State.draws_le_breaches : s.draws ≤ (ds.foldl (State.breach w) s).draws := by
  induction ds generalizing s with
  | nil => exact le_rfl
  | cons d ds ih => exact State.draws_le_breach.trans ih

/-- Every byte outside the output windows of the duties broken keeps its value. -/
theorem State.read_breaches_outside (h : ∀ d ∈ ds, d.broken w = true → d.out.has x = false) :
    Memory.read (ds.foldl (State.breach w) s).mem x = Memory.read s.mem x := by
  induction ds generalizing s with
  | nil => rfl
  | cons d ds ih =>
    obtain ⟨hd, hds⟩ := List.forall_mem_cons.mp h
    rw [List.foldl_cons, ih hds, State.read_breach_outside hd]

/-- Every byte of the output window of a duty broken holds a free value: the one drawn by the last duty broken
that has the byte. -/
theorem State.read_breaches_inside (hwf : Memory.wf s.mem = true)
    (h : ∃ d ∈ ds, d.broken w = true ∧ d.out.has x = true) :
    ∃ n, s.draws ≤ n ∧ n < (ds.foldl (State.breach w) s).draws ∧
      Memory.read (ds.foldl (State.breach w) s).mem x = Config.freeByte n := by
  induction ds generalizing s with
  | nil => obtain ⟨_, hmem, -⟩ := h; cases hmem
  | cons d ds ih =>
    rw [List.foldl_cons]
    by_cases hlater : ∃ e ∈ ds, e.broken w = true ∧ e.out.has x = true
    · obtain ⟨n, hlo, hhi, hread⟩ := ih (State.breach_wf hwf) hlater
      exact ⟨n, State.draws_le_breach.trans hlo, hhi, hread⟩
    · have hrest : ∀ e ∈ ds, e.broken w = true → e.out.has x = false := fun e he hbe =>
        Bool.eq_false_iff.mpr fun hxe => hlater ⟨e, he, hbe, hxe⟩
      obtain ⟨e, he, hbroken, hx⟩ := h
      obtain rfl | he := List.mem_cons.mp he
      · obtain ⟨n, hlo, hhi, hread⟩ := State.read_breach_inside hwf hbroken hx
        exact ⟨n, hlo, hhi.trans_le State.draws_le_breaches, (State.read_breaches_outside hrest).trans hread⟩
      · exact absurd ⟨e, he, hbroken, hx⟩ hlater

end

/-! ## A host write under duties -/

section
variable {s : State} {a : Nat} {bytes : List Byte} {x : Nat}

theorem State.hostStore_tainted_iff (s : State) (a : Nat) (bytes : List Byte) :
    (s.hostStore a bytes).tainted = true ↔
      s.tainted = true ∨ (s.phase ≠ .idle ∧ ∃ d ∈ s.duties.head?, d.TouchedBy a bytes.length) := by
  rw [← State.breaksRun_iff, ← Bool.or_eq_true]
  rfl

theorem State.read_hostStore_freed (hwf : Memory.wf s.mem = true)
    (h : ∃ d ∈ s.duties, d.TouchedBy a bytes.length ∧ d.out.has x = true) :
    ∃ n, s.draws ≤ n ∧ n < (s.hostStore a bytes).draws ∧
      Memory.read (s.hostStore a bytes).mem x = Config.freeByte n := by
  simp only [← Duty.broken_iff] at h
  exact State.read_breaches_inside (s := { s with mem := s.mem.writeBytes a bytes })
    (Memory.wf_writeBytes hwf a bytes) h

theorem State.read_hostStore_kept (hwf : Memory.wf s.mem = true)
    (h : ∀ d ∈ s.duties, d.TouchedBy a bytes.length → d.out.has x = false) :
    Memory.read (s.hostStore a bytes).mem x =
      if a ≤ x then bytes.getD (x - a) (Memory.read s.mem x) else Memory.read s.mem x := by
  simp only [← Duty.broken_iff] at h
  exact (State.read_breaches_outside (s := { s with mem := s.mem.writeBytes a bytes }) h).trans
    (Memory.read_writeBytes hwf a x bytes)

/-- With one duty, byte k of its output window is draw k. -/
theorem State.read_hostStore_single {d : Duty} (hwf : Memory.wf s.mem = true) (hd : s.duties = [d])
    (ht : d.TouchedBy a bytes.length) {k : Nat} (hk : k < d.out.size) :
    Memory.read (s.hostStore a bytes).mem (d.out.base + k) = Config.freeByte (s.draws + k) := by
  have hmem : (s.hostStore a bytes).mem =
      ({ s with mem := s.mem.writeBytes a bytes }.havoc d.out).mem := by
    rw [← State.breach_broken ((d.broken_iff a _).mpr ht), State.hostStore, hd]
    rfl
  rw [hmem]
  exact State.read_freeBytes (s := { s with mem := s.mem.writeBytes a bytes })
    (Memory.wf_writeBytes hwf a bytes) hk

end

/-! ## The stores of a run whose duty is broken -/

section
variable {s t : State}

/-- How many bytes a run step stores. -/
def State.stepStores (s : State) : Nat :=
  match s.nextPhase with
  | .sample => if s.beat = 0 then s.bs else s.held.length
  | .tail => 1
  | .finish => 0
  | .idle => 0

/-- How many bytes a single byte of a run, or the run step it is, stores. -/
def State.byteStores (s : State) : Nat :=
  match s.nextPhase with
  | .sample =>
    if s.beat + 1 < s.bs then min 1 (if s.beat = 0 then s.bs else s.held.length)
    else if s.beat = 0 then s.bs else s.held.length
  | .tail => 1
  | .finish => 0
  | .idle => 0

/-- The first n output bytes of t are the free values that s draws next. -/
abbrev State.StoresFree (s t : State) (n : Nat) : Prop :=
  ∀ k < n, Memory.read t.mem (s.outAddr + k) = Config.freeByte (s.draws + k)

theorem State.byteStores_of_not_sample (h : s.nextPhase ≠ .sample) : s.byteStores = s.stepStores := by
  unfold State.byteStores State.stepStores
  split
  · next hn => exact absurd hn h
  all_goals rfl

variable (hwf : Memory.wf s.mem = true) (ht : s.tainted = true)
include hwf ht

/-- Whatever bytes a marked run would store, it stores as many free values. -/
theorem State.storesFree_storeOutput (bytes : List Byte) :
    s.StoresFree (s.storeOutput s.outAddr bytes) bytes.length := by
  intro k hk
  rw [State.storeOutput_tainted ht]
  exact State.read_freeBytes hwf hk

theorem State.storesFree_sampleStep (h : s.sampleStep = .next t) :
    s.StoresFree t (if s.beat = 0 then s.bs else s.held.length) := by
  obtain ⟨bytes, hl, -, rfl⟩ := State.sampleStep_next h
  rw [← State.Loads.length hl]
  exact State.storesFree_storeOutput hwf ht bytes

theorem State.storesFree_runStep (h : s.runStep = .next t) : s.StoresFree t s.stepStores := by
  unfold State.stepStores
  obtain ⟨hn, -⟩ | ⟨hn, hs⟩ | ⟨hn, hs⟩ | ⟨hn, -⟩ := State.runStep_next h
  · rw [hn]; nofun
  · rw [State.advance_of_nextPhase_sample hn] at hs
    rw [hn]
    exact State.storesFree_sampleStep hwf ht hs
  · rw [State.tailStep_eq] at hs
    obtain ⟨-, rfl⟩ := State.runStore_next hs
    rw [hn]
    exact State.storesFree_storeOutput (s := s.advance) hwf ht [0x00]
  · rw [hn]; nofun

theorem State.storesFree_runByte (h : s.runByte = .next t) : s.StoresFree t s.byteStores := by
  obtain ⟨hn, hb⟩ | ⟨hn, hs⟩ := State.runByte_next h
  · rw [State.advance_of_nextPhase_sample hn] at hb
    unfold State.byteStores
    rw [hn]
    obtain ⟨hmore, bytes, hl, -, rfl⟩ | ⟨hlast, hs⟩ := State.sampleByte_next hb
    · simp only [if_pos hmore, ← State.Loads.length hl, ← List.length_take]
      exact State.storesFree_storeOutput hwf ht (bytes.take 1)
    · simp only [if_neg hlast]
      exact State.storesFree_sampleStep hwf ht hs
  · rw [State.byteStores_of_not_sample hn]
    exact State.storesFree_runStep hwf ht hs

end

end Sys2Proof.Machine
end

section
/-! The statements about reset, about POS and about a run whose duty is broken, settled. -/

namespace Sys2Proof.Machine

/-- Settles O44: the step is the reset input, which takes nothing of its state but what it keeps. -/
theorem resetInputResetsTheBlock : Obligations.ResetInputResetsTheBlock := by
  intro s lost rest hs
  have hstep : step s = .next { s with inputs := rest }.resetInput := step_event hs
  exact ⟨_, hstep, rfl⟩

/-- Settles O40: only the end of a sample moves POS, and the invariant of the next state bounds it by REQ. -/
theorem posNeverDecreases : Obligations.PosNeverDecreases := by
  intro s t hs hb h ht
  obtain ⟨-, hle⟩ := (hs.step h).pos_ok ht
  exact ⟨step_posStaysOrAdvances hs hb h ht, step_req hb h ht ▸ hle⟩

/-- Settles O46: a turn of the sequencer decides nothing by what DMEM holds or by the record of a breach. -/
theorem runStateIgnoresDmem : Obligations.RunStateIgnoresDmem := by
  intro s t m h b d hlen
  refine ⟨fun hrun => ?step, fun hrun => ?byte⟩
  case step =>
    obtain ⟨m', held', b', d', hnext, hlen'⟩ := State.runStep_withData (m := m) (b := b) (d := d) hlen t hrun
    exact ⟨_, hnext, rfl, hlen'⟩
  case byte =>
    obtain ⟨m', held', b', d', hnext, hlen'⟩ := State.runByte_withData (m := m) (b := b) (d := d) hlen t hrun
    exact ⟨_, hnext, rfl, hlen'⟩

/-- Settles O60: the duties broken free their windows one after the other, and the stores of a marked run are
free values. -/
theorem brokenDutyFreesTheOutputWindow : Obligations.BrokenDutyFreesTheOutputWindow := by
  refine ⟨fun s a bytes hwf hin => ?write, fun s t hwf ht =>
    ⟨State.storesFree_runStep hwf ht, State.storesFree_runByte hwf ht⟩⟩
  case write =>
    exact ⟨s.hostStore a.toNat bytes, congrArg Host.Outcome.next (State.hostWrite_inside hin),
      s.hostStore_eq _ bytes, s.hostStore_tainted_iff _ bytes, fun x => State.read_hostStore_freed hwf,
      fun x => State.read_hostStore_kept hwf, fun d hd htouch k => State.read_hostStore_single hwf hd htouch⟩

end Sys2Proof.Machine
end
